-- ==== Sys2Proof/Word.lean ====
section
/-! DEFINITION. The word types of the block: the byte, the 16-bit encoder sample and the 32-bit float pattern
(spec 00_scope.md R10). A float is its 32-bit pattern and nothing else (92_eei_decisions.md D34). -/

namespace Sys2Proof

/-- A byte: 8 bits (R10). -/
abbrev Byte := BitVec 8

/-- `u16`: an encoder sample, unsigned fixed point with four fractional bits (R10, R33). -/
abbrev U16 := BitVec 16

/-- `f32`: a 32-bit pattern read as binary32, never canonicalised (R10, R268). -/
abbrev F32 := BitVec 32

end Sys2Proof
end

