-- ==== Sys2Proof/Config.lean ====
section
/-! DEFINITION. The parameters of the block (spec 00_scope.md R7) and the values the spec leaves opaque.

`Config` is plain data and stands in `State` as the field `cfg`, which no step writes (R41): a claim over every state is
then a claim over every configuration (log 1). The parameters whose value the source gives (`CAPACITY`, `SEL_MODE`,
`SEL_ANGLE`, `SENTINEL`, `CONTROL_PERIOD`) are fields too, and `Config.default` carries the source's values. -/

namespace Sys2Proof

/-- The three operating modes (R29); each names one PID instance (R30). -/
inductive Mode where
  | position
  | velocity
  | current
deriving DecidableEq, Repr, Inhabited

/-- One value for each mode: the shape of the PID bank (R30) and of every parameter indexed by a mode (R7). -/
structure PerMode (α : Type) where
  position : α
  velocity : α
  current : α
deriving DecidableEq, Repr, Inhabited

/-- The entry of mode `m`. -/
def PerMode.get {α : Type} (b : PerMode α) : Mode → α
  | .position => b.position
  | .velocity => b.velocity
  | .current => b.current

/-- The bank with the entry of mode `m` replaced, the other two kept (R30). -/
def PerMode.set {α : Type} (b : PerMode α) (m : Mode) (x : α) : PerMode α :=
  match m with
  | .position => { b with position := x }
  | .velocity => { b with velocity := x }
  | .current => { b with current := x }

/-- Event classes (R95): the meaning `StatusMap` gives a status code. -/
inductive EventClass where
  | slaW
  | gcW
  | rxDataAck
  | rxDataNack
  | stopOrRestart
  | slaR
  | txDataAck
  | txDataNack
  | busError
  | gcDataNack
  | other
deriving DecidableEq, Repr

/-- The lines of the `StatusMap` table (R96). A line is a class, but for `RX_DATA_ACK`, which has two lines: a data byte
after the own address and one after a general call (92_eei_decisions.md D3). -/
inductive StatusRow where
  | slaW
  | gcW
  | rxDataAck
  | rxDataAckGc
  | rxDataNack
  | gcDataNack
  | stopOrRestart
  | slaR
  | txDataAck
  | txDataNack
  | busError
  | other
deriving DecidableEq, Repr

/-- `FLOAT_ORDER` (R7, R64). -/
inductive FloatOrder where
  | le
  | be
deriving DecidableEq, Repr

/-- `OVERFLOW_POLICY` (R7, R166). -/
inductive OverflowPolicy where
  | discard
  | deliverFirst64
deriving DecidableEq, Repr

/-- The four gains of a PID instance (R31). -/
structure Gains where
  p : F32
  i : F32
  d : F32
  f : F32
deriving DecidableEq, Repr

/-- `PidAcc`, the opaque type of the accumulator (R40). A value is carried as a code; nothing is assumed of what a code
stands for and nothing computes with it (log 7). -/
structure PidAcc where
  code : Nat
deriving DecidableEq, Repr, Inhabited

/-- The opaque type of an output clamp `PID_CLAMP[m]` (R7, R31), carried as a code like `PidAcc` (log 7). -/
structure PidClamp where
  code : Nat
deriving DecidableEq, Repr, Inhabited

/-- One PID instance: `{P, I, D, F, setpoint : f32; acc : PidAcc}` (R31, R290). -/
structure Pid where
  p : F32
  i : F32
  d : F32
  f : F32
  setpoint : F32
  acc : PidAcc
deriving DecidableEq, Repr

/-- The field `X` a PID setter writes (R292, R293). -/
inductive PidField where
  | p
  | i
  | d
  | f
  | setpoint
deriving DecidableEq, Repr

/-- `PidOnSet` (R7, R292, R293; D15): the default, which returns the accumulator unchanged, or any other hook, carried as
a code (log 8). -/
inductive SetterHook where
  | keepAcc
  | other (code : Nat)
deriving DecidableEq, Repr

/-- `PidOutput` (R7, R294), the control law: which one a device has, carried as a code. A field of `Config` cannot be a
function; the law a code stands for is the opaque constant `Config.pidOutput` (log 8). -/
structure PidLaw where
  code : Nat
deriving DecidableEq, Repr, Inhabited

/-- The parameters of the block (R7): every row of its table. -/
structure Config where
  /-- `CAPACITY`, of both buffers. The source gives 64 (log 34). -/
  capacity : Nat
  /-- `OWN_ADDR`. -/
  ownAddr : BitVec 7
  /-- `GC_ENABLE`. -/
  gcEnable : Bool
  /-- `StatusMap`: the status codes it names, with the table line of each; every other code is `OTHER` (R96). -/
  statusMap : List (Byte × StatusRow)
  selSetpoint : Byte
  /-- `SEL_MODE`. The source gives `0x02`. -/
  selMode : Byte
  selP : Byte
  selI : Byte
  selD : Byte
  selF : Byte
  /-- `SEL_ANGLE`. The source gives `0x81`. -/
  selAngle : Byte
  selVelocity : Byte
  selCurrent : Byte
  /-- `ModeEnc`: the byte of each mode (R110). -/
  modeEnc : PerMode Byte
  floatOrder : FloatOrder
  /-- `SENTINEL`. The source gives `0xFF`. -/
  sentinel : Byte
  overflowPolicy : OverflowPolicy
  /-- `METRIC_FALLTHROUGH` (R277). -/
  metricFallthrough : Bool
  resetMode : Mode
  resetGains : PerMode Gains
  resetSetpoint : PerMode F32
  resetAddress : Byte
  /-- `PID_ACC0` (R291). -/
  pidAcc0 : PidAcc
  /-- `PID_CLAMP[m]` (R31). -/
  pidClamp : PerMode PidClamp
  /-- `PidOnSet` (R292, R293). -/
  pidOnSet : SetterHook
  /-- `PidOutput` (R294). -/
  pidLaw : PidLaw
  /-- `CONTROL_PERIOD` in milliseconds (R370). The source gives 20; no rule depends on it (log 25). -/
  controlPeriodMs : Nat
deriving DecidableEq, Repr

/-- The nine selectors of the map (R100), in the order of its table. -/
def Config.selectors (c : Config) : List Byte :=
  [c.selSetpoint, c.selMode, c.selP, c.selI, c.selD, c.selF, c.selAngle, c.selVelocity, c.selCurrent]

/-- The three mode bytes (R110). -/
def Config.modeBytes (c : Config) : List Byte :=
  [c.modeEnc.position, c.modeEnc.velocity, c.modeEnc.current]

/-- The configurations the block accepts: the selector map and `ModeEnc` are injective (R100, R110; U12), and `StatusMap`
is a function, no status code being listed twice (R96). The step refuses every other configuration. -/
def Config.ok (c : Config) : Bool :=
  decide c.selectors.Nodup && decide c.modeBytes.Nodup && decide (c.statusMap.map Prod.fst).Nodup

/-- `OWN_ADDR` is `OPEN` and has no default (D30): a value about which nothing is known (log 7). -/
opaque Config.openOwnAddr : BitVec 7

/-- `PID_ACC0` is `OPEN` (R7, D15): a value about which nothing is known (log 7). -/
opaque Config.openPidAcc0 : PidAcc

/-- `PID_CLAMP[m]` is `OPEN` (R7): values about which nothing is known (log 7). -/
opaque Config.openPidClamp : PerMode PidClamp

/-- Which control law a device has is `OPEN` (R7, R294): a value about which nothing is known (log 8). -/
opaque Config.openPidLaw : PidLaw

/-- `PidOutput` (R294), for each control law: a total function of exactly the four gains, the setpoint, the accumulator, the clamp and the
measured value, giving the output and the new accumulator. Nothing else is known of it (log 8). -/
opaque Config.pidOutput (law : PidLaw) (p i d f setpoint : F32) (acc : PidAcc) (clamp : PidClamp) (measured : F32) : F32 × PidAcc

/-- A hook `PidOnSet(X, v, pid[m])` other than the default (R292, R293): what a setter does to the accumulator. The
instance's clamp, which R31 counts as part of `pid[m]`, is an argument of its own. Nothing is known of it (log 8). -/
opaque Config.openPidOnSet (code : Nat) (x : PidField) (v : F32) (pid : Pid) (clamp : PidClamp) : PidAcc

/-- The default `StatusMap` (R96). The numbers are marked in the spec as general knowledge (log 9). -/
def Config.defaultStatusMap : List (Byte × StatusRow) :=
  [(0x60#8, .slaW), (0x70#8, .gcW), (0x80#8, .rxDataAck), (0x90#8, .rxDataAckGc), (0x88#8, .rxDataNack),
   (0x98#8, .gcDataNack), (0xA0#8, .stopOrRestart), (0xA8#8, .slaR), (0xB8#8, .txDataAck), (0xC0#8, .txDataNack),
   (0x00#8, .busError)]

/-- Every gain +0.0: the default `RESET_GAINS[m]` (R7). -/
def Gains.zero : Gains := ⟨0#32, 0#32, 0#32, 0#32⟩

/-- The parameters with their defaults (R7, R96, R100, R110). `RESET_ADDRESS` has no default in the spec: `0x00` is the
model's choice (log 5). -/
def Config.default : Config where
  capacity := 64
  ownAddr := Config.openOwnAddr
  gcEnable := true
  statusMap := Config.defaultStatusMap
  selSetpoint := 0x01#8
  selMode := 0x02#8
  selP := 0x03#8
  selI := 0x04#8
  selD := 0x05#8
  selF := 0x06#8
  selAngle := 0x81#8
  selVelocity := 0x82#8
  selCurrent := 0x83#8
  modeEnc := ⟨0x00#8, 0x01#8, 0x02#8⟩
  floatOrder := .le
  sentinel := 0xFF#8
  overflowPolicy := .discard
  metricFallthrough := false
  resetMode := .position
  resetGains := ⟨.zero, .zero, .zero⟩
  resetSetpoint := ⟨0#32, 0#32, 0#32⟩
  resetAddress := 0x00#8
  pidAcc0 := Config.openPidAcc0
  pidClamp := Config.openPidClamp
  pidOnSet := .keepAcc
  pidLaw := Config.openPidLaw
  controlPeriodMs := 20

end Sys2Proof
end

