-- ==== Sys2Proof/Syntax.lean ====
section
/-! DEFINITION. The instructions: one constructor for each row of spec/opcode_table.json (00_scope.md R9, 30_encoding.md
R116), and `Encoded`, what the decoder reads: the status code with the condition on the engine, the selector with the
direction and the payload, or a call. -/

namespace Sys2Proof

/-- The values of the engine's `state` register (R20). -/
inductive EngineState where
  | idle
  | addressing
  | writing
deriving DecidableEq, Repr

/-- Which of the two ring buffers an operation works on (R22, R23, R130). -/
inductive Buf where
  | inbound
  | outbound
deriving DecidableEq, Repr

/-- The two operations of the table's one row `push_byte/pop_byte` (R155). -/
inductive ByteOp where
  | push (v : Byte)
  | pop
deriving DecidableEq, Repr

/-- The instructions. An operand is a value of the encoding: a payload's pattern (R101, R102), the bytes of an ignored
payload, the selector or the status code that no named row matches, the arguments of a call. -/
inductive Instr where
  -- bus events, R162 to R175
  | slaW
  | gcW
  | rxDataAckAddressing
  | rxDataAckWriting
  | rxDataAckOverflow
  | rxDataAckIdle
  | rxDataAckGcAddressing
  | rxDataAckGcWriting
  | rxDataAckGcOverflow
  | rxDataAckGcIdle
  | rxDataNack
  | gcDataNack
  | stopOrRestart
  | slaR
  | txDataAck
  | txDataNack
  | busError
  | other (statusCode : Byte)
  -- register writes, R202 to R213
  | wrSetpoint (v : F32)
  | wrMode (sp : F32) (m : Mode)
  | wrP (v : F32)
  | wrI (v : F32)
  | wrD (v : F32)
  | wrF (v : F32)
  | wrAngle (payload : List Byte)
  | wrVelocity (payload : List Byte)
  | wrCurrent (payload : List Byte)
  | wrUnrecognized (selector : Byte) (payload : List Byte)
  | wrBadLength (selector : Byte) (payload : List Byte)
  | wrModeInvalid (sp : F32) (modeByte : Byte)
  -- register reads, R231 to R240
  | rdSetpoint
  | rdMode
  | rdP
  | rdI
  | rdD
  | rdF
  | rdAngle
  | rdVelocity
  | rdCurrent
  | rdUnrecognized (selector : Byte)
  -- the entry point and the two callbacks, R160, R200, R230
  | serve (statusCode : Byte)
  | onWrite (selector : Byte)
  | onRead (selector : Byte)
  -- Device Control State operations, R260 to R278, and the foreground's tick, R282
  | transitionState (newMode : Mode) (sp : F32)
  | setP (v : F32)
  | setI (v : F32)
  | setD (v : F32)
  | setF (v : F32)
  | setSetpoint (v : F32)
  | getP
  | getI
  | getD
  | getF
  | getSetpoint
  | getMode
  | getAngle
  | getVel
  | getCurrent
  | getOutput
  | tick (encNew : U16) (curNew : F32)
  -- ring buffer operations, R131 to R140
  | rbSize (b : Buf)
  | rbFull (b : Buf)
  | rbEmpty (b : Buf)
  | rbPushBack (b : Buf) (v : Byte)
  | rbPushFront (b : Buf) (v : Byte)
  | rbPopFront (b : Buf)
  | rbPopBack (b : Buf)
  | rbClear (b : Buf)
  -- float codec operations, R150 to R155
  | encodeF32 (v : F32)
  | decodeF32 (w0 w1 w2 w3 : Byte)
  | pushFloat (b : Buf) (v : F32)
  | popFloat (b : Buf)
  | pushBytePopByte (b : Buf) (op : ByteOp)
deriving DecidableEq, Repr

/-- The three kinds of table row, told apart by `fields.space` (R116). The selector space is read with its direction. -/
inductive Space where
  | statusCode
  | selectorWrite
  | selectorRead
  | call
deriving DecidableEq, Repr

/-- The kind of row an instruction is (R116). -/
def Instr.space : Instr → Space
  | .slaW | .gcW | .rxDataAckAddressing | .rxDataAckWriting | .rxDataAckOverflow | .rxDataAckIdle
  | .rxDataAckGcAddressing | .rxDataAckGcWriting | .rxDataAckGcOverflow | .rxDataAckGcIdle | .rxDataNack
  | .gcDataNack | .stopOrRestart | .slaR | .txDataAck | .txDataNack | .busError | .other _ => .statusCode
  | .wrSetpoint _ | .wrMode _ _ | .wrP _ | .wrI _ | .wrD _ | .wrF _ | .wrAngle _ | .wrVelocity _ | .wrCurrent _
  | .wrUnrecognized _ _ | .wrBadLength _ _ | .wrModeInvalid _ _ => .selectorWrite
  | .rdSetpoint | .rdMode | .rdP | .rdI | .rdD | .rdF | .rdAngle | .rdVelocity | .rdCurrent
  | .rdUnrecognized _ => .selectorRead
  | .serve _ | .onWrite _ | .onRead _ | .transitionState _ _ | .setP _ | .setI _ | .setD _ | .setF _
  | .setSetpoint _ | .getP | .getI | .getD | .getF | .getSetpoint | .getMode | .getAngle | .getVel | .getCurrent
  | .getOutput | .tick _ _ | .rbSize _ | .rbFull _ | .rbEmpty _ | .rbPushBack _ _ | .rbPushFront _ _
  | .rbPopFront _ | .rbPopBack _ | .rbClear _ | .encodeF32 _ | .decodeF32 _ _ _ _ | .pushFloat _ _ | .popFloat _
  | .pushBytePopByte _ _ => .call

/-- What the decoder reads. -/
inductive Encoded where
  /-- A bus event: the status code, and the two facts the table's `fields.condition` names (R94, R116, R161). -/
  | event (statusCode : Byte) (engine : EngineState) (inboundFull : Bool)
  /-- A register write: the selector byte and the payload, whose length is part of the encoding (R99, R114). -/
  | write (selector : Byte) (payload : List Byte)
  /-- A register read: the selector byte (R99). -/
  | read (selector : Byte)
  /-- A row without an encoding: it is called and not decoded (R116 (3)). -/
  | call (i : Instr)
deriving DecidableEq, Repr

/-- Why the decoder rejects. Safe: the block never presents such a thing. -/
inductive DecodeError where
  /-- A call names an event or a register operation, which are decoded and not called (R116). -/
  | notACall
  /-- A register write without a payload, which never reaches `on_write` (R214). -/
  | noPayload
  /-- A register write of more than `CAPACITY` bytes, which no buffer holds (R130, R200). -/
  | payloadTooLong
deriving DecidableEq, Repr

end Sys2Proof
end

