-- ==== Sys2Proof/Machine/Flags.lean ====
section
/-! DEFINITION. The condition values of the block. It has no flags register (spec 10_state.md R36): the only conditions are
the three predicates of a ring buffer's content (40_ring_buffer.md R131 to R133) and the result of `serve`, which the
shared operation `serveReturn` of Machine/Ops.lean latches (R27). -/

namespace Sys2Proof.Machine

/-- `size(b)` (R131). -/
def bufSize (b : List Byte) : Nat := b.length

/-- `full(b)` (R132), of a buffer of the capacity given (R130). -/
def bufFull (cap : Nat) (b : List Byte) : Bool := b.length == cap

/-- `empty(b)` (R133). -/
def bufEmpty (b : List Byte) : Bool := b.length == 0

end Sys2Proof.Machine
end

