-- ==== Sys2Proof/Machine/Operands.lean ====
section
/-! DEFINITION. Operand forms: the float codec and its byte order (spec 41_float_codec.md), `ModeEnc` (R110), the selector
map (R100), `StatusMap` (R95, R96) and the exact binary32 patterns of the telemetry (R274, R275). Pure functions of their
arguments and the configuration. -/

namespace Sys2Proof.Machine

/-- `encode_f32` (R150): the four bytes of a pattern in wire order. -/
def encodeF32 (o : FloatOrder) (v : F32) : Byte × Byte × Byte × Byte :=
  match o with
  | .le => (v.extractLsb' 0 8, v.extractLsb' 8 8, v.extractLsb' 16 8, v.extractLsb' 24 8)
  | .be => (v.extractLsb' 24 8, v.extractLsb' 16 8, v.extractLsb' 8 8, v.extractLsb' 0 8)

/-- `decode_f32` (R151): the pattern of four bytes in wire order. -/
def decodeF32 (o : FloatOrder) (w0 w1 w2 w3 : Byte) : F32 :=
  match o with
  | .le => w3 ++ w2 ++ w1 ++ w0
  | .be => w0 ++ w1 ++ w2 ++ w3

/-- The payload of format `F4` (R101): the four bytes as a list, first on the wire first. -/
def wireF32 (o : FloatOrder) (v : F32) : List Byte :=
  let (w0, w1, w2, w3) := encodeF32 o v
  [w0, w1, w2, w3]

/-- `ModeEnc` (R110). -/
def modeEnc (c : Config) (m : Mode) : Byte := c.modeEnc.get m

/-- The mode `m` with `ModeEnc(m)` equal to the byte, none where the byte is an invalid mode byte (R111, R207). -/
def modeOf (c : Config) (b : Byte) : Option Mode :=
  if b = modeEnc c .position then some .position
  else if b = modeEnc c .velocity then some .velocity
  else if b = modeEnc c .current then some .current
  else none

/-- The nine registers of the map (R42, R100). -/
inductive Reg where
  | setpoint
  | mode
  | p
  | i
  | d
  | f
  | angle
  | velocity
  | current
deriving DecidableEq, Repr

/-- The selector of a register (R100). -/
def selectorOf (c : Config) : Reg → Byte
  | .setpoint => c.selSetpoint
  | .mode => c.selMode
  | .p => c.selP
  | .i => c.selI
  | .d => c.selD
  | .f => c.selF
  | .angle => c.selAngle
  | .velocity => c.selVelocity
  | .current => c.selCurrent

/-- The selector map (R100): the register a selector names, all 8 bits compared (R99); none where it is unrecognized
(R112). -/
def regOf (c : Config) (a : Byte) : Option Reg :=
  if a = c.selSetpoint then some .setpoint
  else if a = c.selMode then some .mode
  else if a = c.selP then some .p
  else if a = c.selI then some .i
  else if a = c.selD then some .d
  else if a = c.selF then some .f
  else if a = c.selAngle then some .angle
  else if a = c.selVelocity then some .velocity
  else if a = c.selCurrent then some .current
  else none

/-- The payload length a write expects (R68, R100, R212): 4, 5 for the mode selector, none for a read-only register,
which ignores a payload of any length (R208 to R210). -/
def expectedLength : Reg → Option Nat
  | .setpoint | .p | .i | .d | .f => some 4
  | .mode => some 5
  | .angle | .velocity | .current => none

/-- The line of the `StatusMap` table for a status code (R96); a code the table does not list is `other`. -/
def statusRow (c : Config) (sc : Byte) : StatusRow :=
  ((c.statusMap.find? fun e => e.1 == sc).map Prod.snd).getD .other

/-- The class of a table line: both lines of data bytes are `RX_DATA_ACK` (R95, R96). -/
def classOf : StatusRow → EventClass
  | .slaW => .slaW
  | .gcW => .gcW
  | .rxDataAck | .rxDataAckGc => .rxDataAck
  | .rxDataNack => .rxDataNack
  | .gcDataNack => .gcDataNack
  | .stopOrRestart => .stopOrRestart
  | .slaR => .slaR
  | .txDataAck => .txDataAck
  | .txDataNack => .txDataNack
  | .busError => .busError
  | .other => .other

/-- `StatusMap` (R96): the event class of a status code. -/
def statusClass (c : Config) (sc : Byte) : EventClass := classOf (statusRow c sc)

/-- A status code of a table line, the first the configuration lists; none where it lists none. -/
def codeOf (c : Config) (r : StatusRow) : Option Byte :=
  (c.statusMap.find? fun e => e.2 == r).map Prod.fst

/-- The binary32 pattern of `n / 16` for a natural `n`, with the sign given: `f32_of_int(n) / 16.0` (R274, R275). Exact
for `n` below 2^24: the leading one of `n` is hidden, the bits below it are moved to the top of the fraction, and the
exponent is biased by 127 and lessened by the four of the division. Zero is +0.0. The layout is binary32's (log 21). -/
def f32Sixteenths (negative : Bool) (n : Nat) : F32 :=
  if n = 0 then 0#32
  else
    let e := n.log2
    BitVec.ofBool negative ++ BitVec.ofNat 8 (127 + e - 4) ++ BitVec.ofNat 23 ((n - 2 ^ e) * 2 ^ (23 - e))

/-- `f32_of_int(d) / 16.0` for a mathematical integer `d` (R275). -/
def f32OfSixteenths (d : Int) : F32 := f32Sixteenths (decide (d < 0)) d.natAbs

end Sys2Proof.Machine
end

