-- ==== Sys2Proof/WellFormed.lean ====
section
/-! DEFINITION. When an instruction is one that some encoding stands for: the catch-all rows of the table stand only for
codes no named row matches, and a payload has a length a buffer can hold (spec 30_encoding.md R111 to R116,
R200). -/

namespace Sys2Proof

/-- A payload `on_write` can be called with: 1 to `CAPACITY` bytes (R200, R214). -/
def payloadOk (c : Config) (p : List Byte) : Bool := decide (1 ≤ p.length) && decide (p.length ≤ c.capacity)

/-- The selector names a register whose write expects a length other than the payload's (R212). -/
def lengthMismatch (c : Config) (selector : Byte) (payload : List Byte) : Bool :=
  match (Machine.regOf c selector).bind Machine.expectedLength with
  | some n => payload.length != n
  | none => false

/-- Well-formedness under a configuration. -/
def Instr.wellFormed (c : Config) : Instr → Bool
  | .other sc => Machine.statusRow c sc == .other
  | .wrAngle p | .wrVelocity p | .wrCurrent p => payloadOk c p
  | .wrUnrecognized a p => (Machine.regOf c a).isNone && payloadOk c p
  | .wrBadLength a p => lengthMismatch c a p && payloadOk c p
  | .wrSetpoint _ | .wrP _ | .wrI _ | .wrD _ | .wrF _ => decide (4 ≤ c.capacity)
  | .wrMode _ _ => decide (5 ≤ c.capacity)
  | .wrModeInvalid _ m => (Machine.modeOf c m).isNone && decide (5 ≤ c.capacity)
  | .rdUnrecognized a => (Machine.regOf c a).isNone
  | .slaW | .gcW | .rxDataAckAddressing | .rxDataAckWriting | .rxDataAckOverflow | .rxDataAckIdle
  | .rxDataAckGcAddressing | .rxDataAckGcWriting | .rxDataAckGcOverflow | .rxDataAckGcIdle | .rxDataNack
  | .gcDataNack | .stopOrRestart | .slaR | .txDataAck | .txDataNack | .busError
  | .rdSetpoint | .rdMode | .rdP | .rdI | .rdD | .rdF | .rdAngle | .rdVelocity | .rdCurrent
  | .serve _ | .onWrite _ | .onRead _ | .transitionState _ _ | .setP _ | .setI _ | .setD _ | .setF _
  | .setSetpoint _ | .getP | .getI | .getD | .getF | .getSetpoint | .getMode | .getAngle | .getVel | .getCurrent
  | .getOutput | .tick _ _ | .rbSize _ | .rbFull _ | .rbEmpty _ | .rbPushBack _ _ | .rbPushFront _ _
  | .rbPopFront _ | .rbPopBack _ | .rbClear _ | .encodeF32 _ | .decodeF32 _ _ _ _ | .pushFloat _ _ | .popFloat _
  | .pushBytePopByte _ _ => true

end Sys2Proof
end

