-- ==== Sys2Proof/Decode.lean ====
section
/-! DEFINITION. The decoder, total on everything it is given and rejecting by name, and after it the encoder, written from
the same tables (spec 30_encoding.md R94 to R116, R161, R201). -/

namespace Sys2Proof

open Machine

/-- The arm of `RX_DATA_ACK` with its condition on the engine (R116: `fields.condition`): after the own address. -/
def decodeRxDataAck (st : EngineState) (inboundFull : Bool) : Instr :=
  match st, inboundFull with
  | .addressing, _ => .rxDataAckAddressing
  | .writing, false => .rxDataAckWriting
  | .writing, true => .rxDataAckOverflow
  | .idle, _ => .rxDataAckIdle

/-- The arm of `RX_DATA_ACK` with its condition on the engine: after a general call. -/
def decodeRxDataAckGc (st : EngineState) (inboundFull : Bool) : Instr :=
  match st, inboundFull with
  | .addressing, _ => .rxDataAckGcAddressing
  | .writing, false => .rxDataAckGcWriting
  | .writing, true => .rxDataAckGcOverflow
  | .idle, _ => .rxDataAckGcIdle

/-- A bus event (R94, R96, R161): the table line of the status code, then for a data byte the condition. -/
def decodeEvent (c : Config) (sc : Byte) (st : EngineState) (inboundFull : Bool) : Instr :=
  match statusRow c sc with
  | .slaW => .slaW
  | .gcW => .gcW
  | .rxDataAck => decodeRxDataAck st inboundFull
  | .rxDataAckGc => decodeRxDataAckGc st inboundFull
  | .rxDataNack => .rxDataNack
  | .gcDataNack => .gcDataNack
  | .stopOrRestart => .stopOrRestart
  | .slaR => .slaR
  | .txDataAck => .txDataAck
  | .txDataNack => .txDataNack
  | .busError => .busError
  | .other => .other sc

/-- A write of format `F4` (R101, R212): four bytes are the value, any other length is a wrong length. -/
def decodeFloatWrite (c : Config) (a : Byte) (payload : List Byte) (row : F32 → Instr) : Instr :=
  match payload with
  | [w0, w1, w2, w3] => row (decodeF32 c.floatOrder w0 w1 w2 w3)
  | _ => .wrBadLength a payload

/-- A write to the mode selector, format `F4M1` (R102, R111, R212). -/
def decodeModeWrite (c : Config) (a : Byte) (payload : List Byte) : Instr :=
  match payload with
  | [w0, w1, w2, w3, mb] =>
    match modeOf c mb with
    | some m => .wrMode (decodeF32 c.floatOrder w0 w1 w2 w3) m
    | none => .wrModeInvalid (decodeF32 c.floatOrder w0 w1 w2 w3) mb
  | _ => .wrBadLength a payload

/-- A register write (R99, R100, R201): selector, then length, then mode byte. -/
def decodeWrite (c : Config) (a : Byte) (payload : List Byte) : Instr :=
  match regOf c a with
  | some .setpoint => decodeFloatWrite c a payload .wrSetpoint
  | some .mode => decodeModeWrite c a payload
  | some .p => decodeFloatWrite c a payload .wrP
  | some .i => decodeFloatWrite c a payload .wrI
  | some .d => decodeFloatWrite c a payload .wrD
  | some .f => decodeFloatWrite c a payload .wrF
  | some .angle => .wrAngle payload
  | some .velocity => .wrVelocity payload
  | some .current => .wrCurrent payload
  | none => .wrUnrecognized a payload

/-- A register read (R99, R100). -/
def decodeRead (c : Config) (a : Byte) : Instr :=
  match regOf c a with
  | some .setpoint => .rdSetpoint
  | some .mode => .rdMode
  | some .p => .rdP
  | some .i => .rdI
  | some .d => .rdD
  | some .f => .rdF
  | some .angle => .rdAngle
  | some .velocity => .rdVelocity
  | some .current => .rdCurrent
  | none => .rdUnrecognized a

/-- The decoder. -/
def decode (c : Config) : Encoded → Except DecodeError Instr
  | .event sc st inboundFull => .ok (decodeEvent c sc st inboundFull)
  | .write a payload =>
    if payload.length = 0 then .error .noPayload
    else if c.capacity < payload.length then .error .payloadTooLong
    else .ok (decodeWrite c a payload)
  | .read a => .ok (decodeRead c a)
  | .call i => if i.space = .call then .ok i else .error .notACall

/-- A bus event whose table line is `r`, with the condition on the engine. None where the configuration lists no status
code for the line. -/
def encodeEvent (c : Config) (r : StatusRow) (st : EngineState) (inboundFull : Bool) : Option Encoded :=
  (codeOf c r).map fun sc => .event sc st inboundFull

/-- The encoder: the code of an instruction, from the tables of R96, R100 to R104 and R110. A condition the row does not
name is written `Idle`, not full. -/
def encode (c : Config) : Instr → Option Encoded
  | .slaW => encodeEvent c .slaW .idle false
  | .gcW => encodeEvent c .gcW .idle false
  | .rxDataAckAddressing => encodeEvent c .rxDataAck .addressing false
  | .rxDataAckWriting => encodeEvent c .rxDataAck .writing false
  | .rxDataAckOverflow => encodeEvent c .rxDataAck .writing true
  | .rxDataAckIdle => encodeEvent c .rxDataAck .idle false
  | .rxDataAckGcAddressing => encodeEvent c .rxDataAckGc .addressing false
  | .rxDataAckGcWriting => encodeEvent c .rxDataAckGc .writing false
  | .rxDataAckGcOverflow => encodeEvent c .rxDataAckGc .writing true
  | .rxDataAckGcIdle => encodeEvent c .rxDataAckGc .idle false
  | .rxDataNack => encodeEvent c .rxDataNack .idle false
  | .gcDataNack => encodeEvent c .gcDataNack .idle false
  | .stopOrRestart => encodeEvent c .stopOrRestart .idle false
  | .slaR => encodeEvent c .slaR .idle false
  | .txDataAck => encodeEvent c .txDataAck .idle false
  | .txDataNack => encodeEvent c .txDataNack .idle false
  | .busError => encodeEvent c .busError .idle false
  | .other sc => some (.event sc .idle false)
  | .wrSetpoint v => some (.write c.selSetpoint (wireF32 c.floatOrder v))
  | .wrMode sp m => some (.write c.selMode (wireF32 c.floatOrder sp ++ [modeEnc c m]))
  | .wrP v => some (.write c.selP (wireF32 c.floatOrder v))
  | .wrI v => some (.write c.selI (wireF32 c.floatOrder v))
  | .wrD v => some (.write c.selD (wireF32 c.floatOrder v))
  | .wrF v => some (.write c.selF (wireF32 c.floatOrder v))
  | .wrAngle p => some (.write c.selAngle p)
  | .wrVelocity p => some (.write c.selVelocity p)
  | .wrCurrent p => some (.write c.selCurrent p)
  | .wrUnrecognized a p => some (.write a p)
  | .wrBadLength a p => some (.write a p)
  | .wrModeInvalid sp mb => some (.write c.selMode (wireF32 c.floatOrder sp ++ [mb]))
  | .rdSetpoint => some (.read c.selSetpoint)
  | .rdMode => some (.read c.selMode)
  | .rdP => some (.read c.selP)
  | .rdI => some (.read c.selI)
  | .rdD => some (.read c.selD)
  | .rdF => some (.read c.selF)
  | .rdAngle => some (.read c.selAngle)
  | .rdVelocity => some (.read c.selVelocity)
  | .rdCurrent => some (.read c.selCurrent)
  | .rdUnrecognized a => some (.read a)
  | .serve sc => some (.call (.serve sc))
  | .onWrite a => some (.call (.onWrite a))
  | .onRead a => some (.call (.onRead a))
  | .transitionState m sp => some (.call (.transitionState m sp))
  | .setP v => some (.call (.setP v))
  | .setI v => some (.call (.setI v))
  | .setD v => some (.call (.setD v))
  | .setF v => some (.call (.setF v))
  | .setSetpoint v => some (.call (.setSetpoint v))
  | .getP => some (.call .getP)
  | .getI => some (.call .getI)
  | .getD => some (.call .getD)
  | .getF => some (.call .getF)
  | .getSetpoint => some (.call .getSetpoint)
  | .getMode => some (.call .getMode)
  | .getAngle => some (.call .getAngle)
  | .getVel => some (.call .getVel)
  | .getCurrent => some (.call .getCurrent)
  | .getOutput => some (.call .getOutput)
  | .tick e x => some (.call (.tick e x))
  | .rbSize b => some (.call (.rbSize b))
  | .rbFull b => some (.call (.rbFull b))
  | .rbEmpty b => some (.call (.rbEmpty b))
  | .rbPushBack b v => some (.call (.rbPushBack b v))
  | .rbPushFront b v => some (.call (.rbPushFront b v))
  | .rbPopFront b => some (.call (.rbPopFront b))
  | .rbPopBack b => some (.call (.rbPopBack b))
  | .rbClear b => some (.call (.rbClear b))
  | .encodeF32 v => some (.call (.encodeF32 v))
  | .decodeF32 w0 w1 w2 w3 => some (.call (.decodeF32 w0 w1 w2 w3))
  | .pushFloat b v => some (.call (.pushFloat b v))
  | .popFloat b => some (.call (.popFloat b))
  | .pushBytePopByte b op => some (.call (.pushBytePopByte b op))

/-- What a bare 8-bit word of spec/opcode_table.json stands for: the table is read in its order, its rows with a whole
mask first. A word that a status-code row names is that event, as the idle engine sees it; a word that a selector names
is the register write, with operand bytes of zero and the length the register expects (one byte where it expects none);
every other word is an event of class `OTHER` (log 4). -/
def tableEncoded (c : Config) (w : Byte) : Encoded :=
  if statusRow c w = .other then
    match regOf c w with
    | some r => .write w (List.replicate ((expectedLength r).getD 1) 0#8)
    | none => .event w .idle false
  else .event w .idle false

/-- The instruction the decoder reads from a word of the table under the default configuration; none for a row without
bits and for a word wider than a byte. -/
def decodeTableWord (nbits w : Nat) : Option Instr :=
  if nbits = 8 ∧ w < 256 then (decode Config.default (tableEncoded Config.default (BitVec.ofNat 8 w))).toOption
  else none

end Sys2Proof
end

