-- ==== Sys2Proof/Machine/State.lean ====
section
/-! DEFINITION. The state of the machine, as plain data (spec 10_state.md), the reasons a step can stop, and the state
after reset (R43). Fields are named as the spec names the registers. -/

namespace Sys2Proof.Machine

/-- What waits to be served: the input of the machine, in the order in which it takes effect (R38, R75; log 2). -/
inductive Request where
  /-- A bus event: the status code and the byte the data register holds at this event (R15, R26). -/
  | event (statusCode : Byte) (dr : Byte)
  /-- One register operation `RegWrite(address, inbound)` (R9 (b), R12): selector and payload are fetched from the state. -/
  | regWrite
  /-- One register operation `RegRead(address)` (R9 (b), R12). -/
  | regRead
  /-- A call on the block's ports: `tick`, a getter, a ring-buffer operation, … (R9 (c), R116 (3)). -/
  | call (i : Instr)
deriving DecidableEq, Repr

/-- A callback the engine invoked, with what it was given (R169, R170, R180). -/
inductive Callback where
  | onWrite (selector : Byte) (payload : List Byte)
  | onRead (selector : Byte)
deriving DecidableEq, Repr

/-- What a call returns: a natural (`size`), a boolean (`full`, `empty`, `serve`), a byte, a 32-bit pattern, a mode, four
bytes (`encode_f32`). -/
inductive Value where
  | nat (n : Nat)
  | bool (b : Bool)
  | byte (v : Byte)
  | f32 (v : F32)
  | mode (m : Mode)
  | bytes (w0 w1 w2 w3 : Byte)
deriving DecidableEq, Repr

/-- The outputs of the step just taken (R12, R26, R282). The model's own record: the step clears it and the
instruction fills it in (log 14). -/
structure Outputs where
  /-- How often the step read `DR`. -/
  drReads : Nat := 0
  /-- The bytes the step wrote to `DR`, first write first. -/
  drWrites : List Byte := []
  /-- The values handed to the motor driver. -/
  drives : List F32 := []
  /-- The callbacks invoked, in order. -/
  callbacks : List Callback := []
  /-- The value the called operation returned. -/
  value : Option Value := none
deriving DecidableEq, Repr

/-- The state (10_state.md). -/
structure State where
  /-- The parameters: configuration, which no step writes (R7, R41; log 1). -/
  cfg : Config
  /-- `state` (R20). -/
  state : EngineState
  /-- `address` (R21). -/
  address : Byte
  /-- `inbound`, front first (R22). -/
  inbound : List Byte
  /-- `outbound`, front first (R23). -/
  outbound : List Byte
  /-- `DR` of the bus controller (R26). -/
  dr : Byte
  /-- `ack_en` of the bus controller (R27). -/
  ackEn : Bool
  /-- `mode` (R29). -/
  mode : Mode
  /-- `pid`, the bank of three PID instances (R30, R31). -/
  pid : PerMode Pid
  /-- `prev_encoder` (R33). -/
  prevEncoder : U16
  /-- `current_encoder` (R33). -/
  currentEncoder : U16
  /-- `current_reading` (R34). -/
  currentReading : F32
  /-- `IM`, the global interrupt mask (R37; log 12). -/
  im : Bool
  /-- The pending events and calls, oldest first (R38; log 2). -/
  pending : List Request
  /-- The outputs of the step just taken (log 14). -/
  out : Outputs
deriving DecidableEq, Repr

/-- The two model-level faults (R137, R138, R308). Both are safe: no event and no `tick` reaches one, where a buffer can hold a
float, as the source's 64 bytes do (log 34). -/
inductive Fault where
  /-- A pop from an empty buffer (R137), raised by `pop_front`, `pop_back` and what pops through them. Safe. -/
  | popEmpty
  /-- A push onto a full buffer (R138), raised by `push_back`, `push_front` and what pushes through them. Safe. -/
  | pushFull
deriving DecidableEq, Repr

/-- Why the machine refuses. Every one is safe: nothing is proved of what happens then. -/
inductive Refusal where
  /-- An instruction without a meaning; raised by `exec` alone. Safe. -/
  | notModelled (mnemonic : String)
  /-- A configuration whose selector map, `ModeEnc` or `StatusMap` is not injective (R100, R110, U12); raised by the step.
  Safe. -/
  | badConfig
  /-- A request that encodes no instruction; raised by the step when the decoder rejects. Safe. -/
  | undecodable (e : DecodeError)
deriving DecidableEq, Repr

/-- A PID instance after reset: `RESET_GAINS[m]`, `RESET_SETPOINT[m]`, `PID_ACC0` (R43). -/
def Pid.afterReset (c : Config) (m : Mode) : Pid :=
  { p := (c.resetGains.get m).p, i := (c.resetGains.get m).i, d := (c.resetGains.get m).d, f := (c.resetGains.get m).f,
    setpoint := c.resetSetpoint.get m, acc := c.pidAcc0 }

/-- The state after power-on and boot under a configuration (R43, R340 to R342). `DR` is unspecified there (log 6). -/
def State.resetWith (c : Config) : State where
  cfg := c
  state := .idle
  address := c.resetAddress
  inbound := []
  outbound := []
  dr := 0x00#8
  ackEn := true
  mode := c.resetMode
  pid := ⟨Pid.afterReset c .position, Pid.afterReset c .velocity, Pid.afterReset c .current⟩
  prevEncoder := 0x0000#16
  currentEncoder := 0x0000#16
  currentReading := 0x00000000#32
  im := false
  pending := []
  out := {}

/-- The state after reset with the default parameters (R7, R43). -/
def State.reset : State := State.resetWith Config.default

end Sys2Proof.Machine
end

