-- ==== Sys2Proof/Machine/Ops.lean ====
section
/-! DEFINITION. The shared operations: the ring buffers (spec 40_ring_buffer.md), the codec over them (41_float_codec.md),
the data register and the two ends of the bus interrupt (R26, R27, R314, R315), and the PID instances (45_device_ops.md
section 4). An operation that can fault answers in `Except Fault`. -/

namespace Sys2Proof.Machine

/-! ### Outcomes -/

/-- The outcome of an operation that can fault. -/
def finish : Except Fault State → Host.Outcome State Fault Refusal
  | .ok s => .next s
  | .error f => .fault f

/-! ### Ring buffers, on a content; a push is given the capacity (R130 to R140) -/

/-- `push_back` (R134): a full buffer is fault `PushFull` (R138). -/
def pushBack (cap : Nat) (b : List Byte) (v : Byte) : Except Fault (List Byte) :=
  if bufFull cap b then .error .pushFull else .ok (b ++ [v])

/-- `push_front` (R135): a full buffer is fault `PushFull` (R138). -/
def pushFront (cap : Nat) (b : List Byte) (v : Byte) : Except Fault (List Byte) :=
  if bufFull cap b then .error .pushFull else .ok (v :: b)

/-- `pop_front` (R136): an empty buffer is fault `PopEmpty` (R137). -/
def popFront (b : List Byte) : Except Fault (Byte × List Byte) :=
  match b with
  | [] => .error .popEmpty
  | v :: rest => .ok (v, rest)

/-- `pop_back` (R139): an empty buffer is fault `PopEmpty` (R137). -/
def popBack (b : List Byte) : Except Fault (Byte × List Byte) :=
  match b.getLast? with
  | none => .error .popEmpty
  | some v => .ok (v, b.dropLast)

/-- `push_byte` (R155). -/
def pushByte (cap : Nat) (b : List Byte) (v : Byte) : Except Fault (List Byte) := pushBack cap b v

/-- `pop_byte` (R155). -/
def popByte (b : List Byte) : Except Fault (Byte × List Byte) := popFront b

/-- `push_float` (R152): the four bytes of `encode_f32` at the back, in wire order. -/
def pushFloat (cap : Nat) (o : FloatOrder) (b : List Byte) (v : F32) : Except Fault (List Byte) := do
  let (w0, w1, w2, w3) := encodeF32 o v
  let b ← pushBack cap b w0
  let b ← pushBack cap b w1
  let b ← pushBack cap b w2
  pushBack cap b w3

/-- `pop_float` (R153): four bytes from the front, in wire order. -/
def popFloat (o : FloatOrder) (b : List Byte) : Except Fault (F32 × List Byte) := do
  let (w0, b) ← popFront b
  let (w1, b) ← popFront b
  let (w2, b) ← popFront b
  let (w3, b) ← popFront b
  return (decodeF32 o w0 w1 w2 w3, b)

/-! ### The two buffers of the engine -/

/-- The content of a buffer (R22, R23). -/
def State.getBuf (s : State) : Buf → List Byte
  | .inbound => s.inbound
  | .outbound => s.outbound

/-- A buffer with a new content. -/
def State.setBuf (s : State) : Buf → List Byte → State
  | .inbound, x => { s with inbound := x }
  | .outbound, x => { s with outbound := x }

/-- `clear` (R140): the document's "cleared", "drain" and "drain and ignore". -/
def State.clearBuf (s : State) (b : Buf) : State := s.setBuf b []

/-! ### Engine registers, the data register, the interrupt -/

/-- `state <- x` (R25). -/
def State.setEngine (s : State) (x : EngineState) : State := { s with state := x }

/-- `address <- a` (R21). -/
def State.setAddress (s : State) (a : Byte) : State := { s with address := a }

/-- `DR.read()` (R12, R26): the byte that stands in `DR`, and the state that records the access. That the byte stays there is
the model's choice: reading may have side effects inside the bus controller (20_memory.md R71), of which the source says
nothing (log 33). -/
def State.readDR (s : State) : Byte × State :=
  (s.dr, { s with out := { s.out with drReads := s.out.drReads + 1 } })

/-- `DR.write(v)` (R12, R26): the byte stands in the data register and is an output of the step. -/
def State.writeDR (s : State) (v : Byte) : State :=
  { s with dr := v, out := { s.out with drWrites := s.out.drWrites ++ [v] } }

/-- The invocation of a callback, recorded (R180). -/
def State.invoked (s : State) (k : Callback) : State :=
  { s with out := { s.out with callbacks := s.out.callbacks ++ [k] } }

/-- The value an operation returns to its caller. -/
def State.returning (s : State) (v : Value) : State := { s with out := { s.out with value := some v } }

/-- Entry into the bus interrupt (R314): nothing is saved and nothing is switched; the event leaves the queue and its byte
stands in the data register (R26). -/
def State.interruptEntry (s : State) (dr : Byte) : State := { s with dr := dr }

/-- Return from `serve` with its result (R315): nothing is restored, and the bus controller latches the result as `ack_en`
(R27). -/
def State.serveReturn (s : State) (r : Bool) : State := { s.returning (.bool r) with ackEn := r }

/-! ### The PID instances (R290 to R295) -/

/-- The instance `pid[m]`. -/
def State.getPid (s : State) (m : Mode) : Pid := s.pid.get m

/-- `pid[m]` replaced (R30: the others are kept). -/
def State.setPid (s : State) (m : Mode) (x : Pid) : State := { s with pid := s.pid.set m x }

/-- The active instance `pid[mode]` (R32). -/
def State.active (s : State) : Pid := s.getPid s.mode

/-- A field of an instance (R295, R272). -/
def pidField (q : Pid) : PidField → F32
  | .p => q.p
  | .i => q.i
  | .d => q.d
  | .f => q.f
  | .setpoint => q.setpoint

/-- A field of an instance written, the accumulator untouched. -/
def pidStore (q : Pid) : PidField → F32 → Pid
  | .p, v => { q with p := v }
  | .i, v => { q with i := v }
  | .d, v => { q with d := v }
  | .f, v => { q with f := v }
  | .setpoint, v => { q with setpoint := v }

/-- `reset()` (R291): the accumulator alone. -/
def pidReset (c : Config) (q : Pid) : Pid := { q with acc := c.pidAcc0 }

/-- `PidOnSet(X, v, pid[m])` (R292, R293) on the instance whose field has just been written. -/
def pidOnSet (c : Config) (m : Mode) (x : PidField) (v : F32) (q : Pid) : PidAcc :=
  match c.pidOnSet with
  | .keepAcc => q.acc
  | .other code => Config.openPidOnSet code x v q (c.pidClamp.get m)

/-- `setSetpoint(v)` (R292), `setP(v)`, `setI(v)`, `setD(v)`, `setF(v)` (R293) of the instance of mode `m`: the field
takes the pattern, then the accumulator goes through the hook. -/
def pidSet (c : Config) (m : Mode) (x : PidField) (v : F32) (q : Pid) : Pid :=
  { pidStore q x v with acc := pidOnSet c m x v (pidStore q x v) }

/-- `getOutput(measured)` (R294): the output, and the instance with its new accumulator, by the law given. -/
def pidOutput (law : PidLaw) (clamp : PidClamp) (measured : F32) (q : Pid) : F32 × Pid :=
  let (out, acc) := Config.pidOutput law q.p q.i q.d q.f q.setpoint q.acc clamp measured
  (out, { q with acc := acc })

/-- A setter of the Device Control State on the active controller (R262 to R266). -/
def State.setField (s : State) (x : PidField) (v : F32) : State :=
  s.setPid s.mode (pidSet s.cfg s.mode x v s.active)

/-- `transition_state(new_mode, sp)` (R260): nothing if the mode is the present one; otherwise mode, reset, setpoint, in
that order, on the controller entered. -/
def State.transition (s : State) (m : Mode) (sp : F32) : State :=
  if m = s.mode then s
  else
    let s := { s with mode := m }
    let s := s.setPid m (pidReset s.cfg (s.getPid m))
    s.setPid m (pidSet s.cfg m .setpoint sp (s.getPid m))

/-- `get_angle()` (R274). -/
def State.angle (s : State) : F32 := f32OfSixteenths s.currentEncoder.toNat

/-- `get_vel()` (R275): the mathematical difference, not reduced modulo 2^16. -/
def State.velocity (s : State) : F32 := f32OfSixteenths ((s.currentEncoder.toNat : Int) - (s.prevEncoder.toNat : Int))

/-- `metric()` (R277). -/
def State.metric (s : State) : F32 :=
  if s.cfg.metricFallthrough then s.currentReading
  else
    match s.mode with
    | .position => s.angle
    | .velocity => s.velocity
    | .current => s.currentReading

/-- `get_output()` (R278). -/
def State.output (s : State) : F32 × State :=
  let (out, q) := pidOutput s.cfg.pidLaw (s.cfg.pidClamp.get s.mode) s.metric s.active
  (out, s.setPid s.mode q)

/-- The sensor samples of `tick` stored (R282): the old current sample becomes the previous one. -/
def State.sample (s : State) (encNew : U16) (curNew : F32) : State :=
  { s with prevEncoder := s.currentEncoder, currentEncoder := encNew, currentReading := curNew }

/-- `IM <- x` (R37). -/
def State.setIM (s : State) (x : Bool) : State := { s with im := x }

/-- `drive(v)` (R282): an output of the step, passed on unchanged. -/
def State.drive (s : State) (v : F32) : State := { s with out := { s.out with drives := s.out.drives ++ [v] } }

end Sys2Proof.Machine
end

