-- ==== Sys2Proof/Machine/Codec.lean ====
section
/-! DEFINITION. The float codec operations (spec 41_float_codec.md). -/

namespace Sys2Proof.Machine

/-- `encode_f32(v)` (R150). -/
def execEncodeF32 (v : F32) (s : State) : Host.Outcome State Fault Refusal :=
  let (w0, w1, w2, w3) := encodeF32 s.cfg.floatOrder v
  .next (s.returning (.bytes w0 w1 w2 w3))

/-- `decode_f32(w0, w1, w2, w3)` (R151). -/
def execDecodeF32 (w0 w1 w2 w3 : Byte) (s : State) : Host.Outcome State Fault Refusal :=
  .next (s.returning (.f32 (decodeF32 s.cfg.floatOrder w0 w1 w2 w3)))

/-- `push_float(b, v)` (R152). -/
def execPushFloat (b : Buf) (v : F32) (s : State) : Host.Outcome State Fault Refusal :=
  finish ((pushFloat s.cfg.capacity s.cfg.floatOrder (s.getBuf b) v).map (s.setBuf b))

/-- `pop_float(b)` (R153). -/
def execPopFloat (b : Buf) (s : State) : Host.Outcome State Fault Refusal :=
  finish ((popFloat s.cfg.floatOrder (s.getBuf b)).map fun r => (s.setBuf b r.2).returning (.f32 r.1))

/-- `push_byte(b, v)` and `pop_byte(b)` (R155), the two operations of one row of the table (log 30). -/
def execPushBytePopByte (b : Buf) (op : ByteOp) (s : State) : Host.Outcome State Fault Refusal :=
  match op with
  | .push v => finish ((pushByte s.cfg.capacity (s.getBuf b) v).map (s.setBuf b))
  | .pop => finish ((popByte (s.getBuf b)).map fun r => (s.setBuf b r.2).returning (.byte r.1))

end Sys2Proof.Machine
end

