-- ==== Sys2Proof/Machine/Device.lean ====
section
/-! DEFINITION. The operations of the Device Control State and the foreground's `tick` (spec 45_device_ops.md). -/

namespace Sys2Proof.Machine

/-- `transition_state(new_mode, sp)` (R260). -/
def execTransitionState (m : Mode) (sp : F32) (s : State) : Host.Outcome State Fault Refusal :=
  .next (s.transition m sp)

/-- `set_P(v)` (R262). -/
def execSetP (v : F32) (s : State) : Host.Outcome State Fault Refusal := .next (s.setField .p v)

/-- `set_I(v)` (R263). -/
def execSetI (v : F32) (s : State) : Host.Outcome State Fault Refusal := .next (s.setField .i v)

/-- `set_D(v)` (R264). -/
def execSetD (v : F32) (s : State) : Host.Outcome State Fault Refusal := .next (s.setField .d v)

/-- `set_F(v)` (R265). -/
def execSetF (v : F32) (s : State) : Host.Outcome State Fault Refusal := .next (s.setField .f v)

/-- `set_setpoint(v)` (R266). -/
def execSetSetpoint (v : F32) (s : State) : Host.Outcome State Fault Refusal := .next (s.setField .setpoint v)

/-- `get_P()` (R267). -/
def execGetP (s : State) : Host.Outcome State Fault Refusal := .next (s.returning (.f32 (pidField s.active .p)))

/-- `get_I()` (R269). -/
def execGetI (s : State) : Host.Outcome State Fault Refusal := .next (s.returning (.f32 (pidField s.active .i)))

/-- `get_D()` (R270). -/
def execGetD (s : State) : Host.Outcome State Fault Refusal := .next (s.returning (.f32 (pidField s.active .d)))

/-- `get_F()` (R271). -/
def execGetF (s : State) : Host.Outcome State Fault Refusal := .next (s.returning (.f32 (pidField s.active .f)))

/-- `get_setpoint()` (R272). -/
def execGetSetpoint (s : State) : Host.Outcome State Fault Refusal :=
  .next (s.returning (.f32 (pidField s.active .setpoint)))

/-- `get_mode()` (R273). -/
def execGetMode (s : State) : Host.Outcome State Fault Refusal := .next (s.returning (.mode s.mode))

/-- `get_angle()` (R274). -/
def execGetAngle (s : State) : Host.Outcome State Fault Refusal := .next (s.returning (.f32 s.angle))

/-- `get_vel()` (R275). -/
def execGetVel (s : State) : Host.Outcome State Fault Refusal := .next (s.returning (.f32 s.velocity))

/-- `get_current()` (R276). -/
def execGetCurrent (s : State) : Host.Outcome State Fault Refusal := .next (s.returning (.f32 s.currentReading))

/-- `get_output()` (R278). -/
def execGetOutput (s : State) : Host.Outcome State Fault Refusal :=
  let (out, s) := s.output
  .next (s.returning (.f32 out))

/-- `tick(enc_new, cur_new)` (R282): one atomic step, between the masking and the unmasking of interrupts. -/
def execTick (encNew : U16) (curNew : F32) (s : State) : Host.Outcome State Fault Refusal :=
  let s := s.setIM true
  let s := s.sample encNew curNew
  let (out, s) := s.output
  let s := s.drive out
  .next (s.setIM false)

end Sys2Proof.Machine
end

