-- ==== Sys2Proof/Machine/RegRead.lean ====
section
/-! DEFINITION. Register reads (spec 44_regmap_read.md): each pushes the payload of its register onto the outbound buffer,
and `on_read` chooses by the selector (R230). -/

namespace Sys2Proof.Machine

/-- A payload of format `F4` pushed onto outbound (R152). -/
def readFloat (v : F32) (s : State) : Except Fault State :=
  (pushFloat s.cfg.capacity s.cfg.floatOrder s.outbound v).map (s.setBuf .outbound)

/-- A payload of one byte, format `M1` or `S1`, pushed onto outbound (R155). -/
def readByte (v : Byte) (s : State) : Except Fault State :=
  (pushByte s.cfg.capacity s.outbound v).map (s.setBuf .outbound)

/-- What a register read pushes (R231 to R240). -/
def readReg (r : Option Reg) (s : State) : Except Fault State :=
  match r with
  | some .p => readFloat (pidField s.active .p) s
  | some .i => readFloat (pidField s.active .i) s
  | some .d => readFloat (pidField s.active .d) s
  | some .f => readFloat (pidField s.active .f) s
  | some .setpoint => readFloat (pidField s.active .setpoint) s
  | some .mode => readByte (modeEnc s.cfg s.mode) s
  | some .angle => readFloat s.angle s
  | some .velocity => readFloat s.velocity s
  | some .current => readFloat s.currentReading s
  | none => readByte s.cfg.sentinel s

/-- `on_read(a, outbound)` (R230), the invocation recorded (R180). -/
def onRead (a : Byte) (s : State) : Except Fault State :=
  readReg (regOf s.cfg a) (s.invoked (.onRead a))

/-- `on_read` (R230). -/
def execOnRead (a : Byte) (s : State) : Host.Outcome State Fault Refusal := finish (onRead a s)

/-- Read P gain (R231). -/
def execRdP (s : State) : Host.Outcome State Fault Refusal := finish (readFloat (pidField s.active .p) s)

/-- Read I gain (R232). -/
def execRdI (s : State) : Host.Outcome State Fault Refusal := finish (readFloat (pidField s.active .i) s)

/-- Read D gain (R233). -/
def execRdD (s : State) : Host.Outcome State Fault Refusal := finish (readFloat (pidField s.active .d) s)

/-- Read F gain (R234). -/
def execRdF (s : State) : Host.Outcome State Fault Refusal := finish (readFloat (pidField s.active .f) s)

/-- Read setpoint (R235). -/
def execRdSetpoint (s : State) : Host.Outcome State Fault Refusal := finish (readFloat (pidField s.active .setpoint) s)

/-- Read mode (R236). -/
def execRdMode (s : State) : Host.Outcome State Fault Refusal := finish (readByte (modeEnc s.cfg s.mode) s)

/-- Read angle (R237). -/
def execRdAngle (s : State) : Host.Outcome State Fault Refusal := finish (readFloat s.angle s)

/-- Read velocity (R238). -/
def execRdVelocity (s : State) : Host.Outcome State Fault Refusal := finish (readFloat s.velocity s)

/-- Read current (R239). -/
def execRdCurrent (s : State) : Host.Outcome State Fault Refusal := finish (readFloat s.currentReading s)

/-- Read of an unrecognized selector (R240): one sentinel byte. -/
def execRdUnrecognized (_selector : Byte) (s : State) : Host.Outcome State Fault Refusal :=
  finish (readByte s.cfg.sentinel s)

end Sys2Proof.Machine
end

