-- ==== Sys2Proof/Machine/RegWrite.lean ====
section
/-! DEFINITION. Register writes (spec 43_regmap_write.md): the callback `on_write` with its checks in their order (R201),
and one definition for each write row, applied to the operand the payload carries. -/

namespace Sys2Proof.Machine

/-- A write of one float (R202 to R206) on the inbound buffer: the length is checked, then `pop_float`, then the
setter of field `x`; another length is drained and ignored (R212). -/
def writeFloat (x : PidField) (s : State) : Except Fault State :=
  if bufSize s.inbound ≠ 4 then .ok (s.clearBuf .inbound)
  else do
    let (v, b) ← popFloat s.cfg.floatOrder s.inbound
    return (s.setBuf .inbound b).setField x v

/-- A write to the mode selector (R207) on the inbound buffer: the length is checked, then the setpoint and the mode byte
are popped; an invalid mode byte stops there (R213). -/
def writeMode (s : State) : Except Fault State :=
  if bufSize s.inbound ≠ 5 then .ok (s.clearBuf .inbound)
  else do
    let (sp, b) ← popFloat s.cfg.floatOrder s.inbound
    let (mb, b) ← popByte b
    match modeOf s.cfg mb with
    | none => return s.setBuf .inbound b
    | some m => return (s.setBuf .inbound b).transition m sp

/-- `on_write(a, inbound)` (R200, R201), the invocation recorded (R180). -/
def onWrite (a : Byte) (s : State) : Except Fault State :=
  let s := s.invoked (.onWrite a s.inbound)
  match regOf s.cfg a with
  | none => .ok (s.clearBuf .inbound)
  | some .angle => .ok (s.clearBuf .inbound)
  | some .velocity => .ok (s.clearBuf .inbound)
  | some .current => .ok (s.clearBuf .inbound)
  | some .setpoint => writeFloat .setpoint s
  | some .p => writeFloat .p s
  | some .i => writeFloat .i s
  | some .d => writeFloat .d s
  | some .f => writeFloat .f s
  | some .mode => writeMode s

/-- `on_write` (R200). -/
def execOnWrite (a : Byte) (s : State) : Host.Outcome State Fault Refusal := finish (onWrite a s)

/-- Write P gain (R202): `set_P(v)` with the value popped from the payload. -/
def execWrP (v : F32) (s : State) : Host.Outcome State Fault Refusal := .next ((s.clearBuf .inbound).setField .p v)

/-- Write I gain (R203). -/
def execWrI (v : F32) (s : State) : Host.Outcome State Fault Refusal := .next ((s.clearBuf .inbound).setField .i v)

/-- Write D gain (R204). -/
def execWrD (v : F32) (s : State) : Host.Outcome State Fault Refusal := .next ((s.clearBuf .inbound).setField .d v)

/-- Write F gain (R205). -/
def execWrF (v : F32) (s : State) : Host.Outcome State Fault Refusal := .next ((s.clearBuf .inbound).setField .f v)

/-- Write setpoint (R206). -/
def execWrSetpoint (v : F32) (s : State) : Host.Outcome State Fault Refusal :=
  .next ((s.clearBuf .inbound).setField .setpoint v)

/-- Write mode (R207): `transition_state(m, sp)`. -/
def execWrMode (sp : F32) (m : Mode) (s : State) : Host.Outcome State Fault Refusal :=
  .next ((s.clearBuf .inbound).transition m sp)

/-- Write angle (R208): the payload is drained, nothing else changes. -/
def execWrAngle (_payload : List Byte) (s : State) : Host.Outcome State Fault Refusal := .next (s.clearBuf .inbound)

/-- Write velocity (R209). -/
def execWrVelocity (_payload : List Byte) (s : State) : Host.Outcome State Fault Refusal := .next (s.clearBuf .inbound)

/-- Write current (R210). -/
def execWrCurrent (_payload : List Byte) (s : State) : Host.Outcome State Fault Refusal := .next (s.clearBuf .inbound)

/-- Write to an unrecognized selector (R211). -/
def execWrUnrecognized (_selector : Byte) (_payload : List Byte) (s : State) : Host.Outcome State Fault Refusal :=
  .next (s.clearBuf .inbound)

/-- Wrong length (R212). -/
def execWrBadLength (_selector : Byte) (_payload : List Byte) (s : State) : Host.Outcome State Fault Refusal :=
  .next (s.clearBuf .inbound)

/-- Invalid mode byte (R213): the whole write is ignored. -/
def execWrModeInvalid (_sp : F32) (_modeByte : Byte) (s : State) : Host.Outcome State Fault Refusal :=
  .next (s.clearBuf .inbound)

end Sys2Proof.Machine
end

