-- ==== Sys2Proof/Machine/Events.lean ====
section
/-! DEFINITION. The engine's events (spec 42_engine_events.md): the actions of the rules R162 to R175, one definition for
each row of the table, and the entry point `serve` (R160, R161). -/

namespace Sys2Proof.Machine

/-! ### The actions -/

/-- R162, R163: addressed for write. -/
def evStartWrite (s : State) : State := ((s.clearBuf .inbound).setEngine .addressing).serveReturn true

/-- R164: the selector byte. -/
def evSelector (s : State) : State :=
  let (v, s) := s.readDR
  ((s.setAddress v).setEngine .writing).serveReturn true

/-- R165: a payload byte. -/
def evPayload (s : State) : Except Fault State := do
  let (v, s) := s.readDR
  let b ← pushBack s.cfg.capacity s.inbound v
  return (s.setBuf .inbound b).serveReturn true

/-- R166: overflow. The byte is read and thrown away; the policy decides what becomes of the bytes stored. -/
def evOverflow (s : State) : State :=
  let (_, s) := s.readDR
  let s := match s.cfg.overflowPolicy with
    | .discard => s.clearBuf .inbound
    | .deliverFirst64 => s
  (s.setEngine .idle).serveReturn false

/-- R167, R168 outside `Addressing`, R173, R174, R175: partial data is dropped. -/
def evDrop (s : State) : State := ((s.clearBuf .inbound).setEngine .idle).serveReturn true

/-- R168: a data byte not acknowledged. -/
def evDataNack (s : State) : State :=
  match s.state with
  | .addressing => s.serveReturn true
  | .writing => evDrop s
  | .idle => evDrop s

/-- R169: end of a write. -/
def evStop (s : State) : Except Fault State := do
  let s ← if bufEmpty s.inbound then .ok s else onWrite s.address s
  return ((s.clearBuf .inbound).setEngine .idle).serveReturn true

/-- The common end of R170 and R171: nothing to send, or the next byte into the data register. -/
def evTransmit (s : State) : Except Fault State :=
  if bufEmpty s.outbound then .ok ((s.setEngine .idle).serveReturn false)
  else do
    let (v, b) ← popFront s.outbound
    let s := (s.setBuf .outbound b).writeDR v
    return s.serveReturn (!bufEmpty s.outbound)

/-- R170: addressed for read. -/
def evStartRead (s : State) : Except Fault State := do
  let s ← onRead s.address (s.clearBuf .outbound)
  evTransmit s

/-- R172: the master ends the read. -/
def evReadEnd (s : State) : State := (s.setEngine .idle).serveReturn true

/-! ### The rows of the table -/

/-- `SLA_W` (R162). -/
def execSlaW (s : State) : Host.Outcome State Fault Refusal := .next (evStartWrite s)

/-- `GC_W` (R163). -/
def execGcW (s : State) : Host.Outcome State Fault Refusal := .next (evStartWrite s)

/-- `RX_DATA_ACK` in `Addressing` (R164). -/
def execRxDataAckAddressing (s : State) : Host.Outcome State Fault Refusal := .next (evSelector s)

/-- `RX_DATA_ACK` in `Writing`, not full (R165). -/
def execRxDataAckWriting (s : State) : Host.Outcome State Fault Refusal := finish (evPayload s)

/-- `RX_DATA_ACK` in `Writing`, full (R166). -/
def execRxDataAckOverflow (s : State) : Host.Outcome State Fault Refusal := .next (evOverflow s)

/-- `RX_DATA_ACK` in `Idle` (R167). -/
def execRxDataAckIdle (s : State) : Host.Outcome State Fault Refusal := .next (evDrop s)

/-- `RX_DATA_ACK` after a general call, in `Addressing` (R164). -/
def execRxDataAckGcAddressing (s : State) : Host.Outcome State Fault Refusal := .next (evSelector s)

/-- `RX_DATA_ACK` after a general call, in `Writing`, not full (R165). -/
def execRxDataAckGcWriting (s : State) : Host.Outcome State Fault Refusal := finish (evPayload s)

/-- `RX_DATA_ACK` after a general call, in `Writing`, full (R166). -/
def execRxDataAckGcOverflow (s : State) : Host.Outcome State Fault Refusal := .next (evOverflow s)

/-- `RX_DATA_ACK` after a general call, in `Idle` (R167). -/
def execRxDataAckGcIdle (s : State) : Host.Outcome State Fault Refusal := .next (evDrop s)

/-- `RX_DATA_NACK` (R168). -/
def execRxDataNack (s : State) : Host.Outcome State Fault Refusal := .next (evDataNack s)

/-- `GC_DATA_NACK` (R174). -/
def execGcDataNack (s : State) : Host.Outcome State Fault Refusal := .next (evDrop s)

/-- `STOP_OR_RESTART` (R169). -/
def execStopOrRestart (s : State) : Host.Outcome State Fault Refusal := finish (evStop s)

/-- `SLA_R` (R170). -/
def execSlaR (s : State) : Host.Outcome State Fault Refusal := finish (evStartRead s)

/-- `TX_DATA_ACK` (R171). -/
def execTxDataAck (s : State) : Host.Outcome State Fault Refusal := finish (evTransmit s)

/-- `TX_DATA_NACK` (R172). -/
def execTxDataNack (s : State) : Host.Outcome State Fault Refusal := .next (evReadEnd s)

/-- `BUS_ERROR` (R173). -/
def execBusError (s : State) : Host.Outcome State Fault Refusal := .next (evDrop s)

/-- `OTHER` (R175). -/
def execOther (_statusCode : Byte) (s : State) : Host.Outcome State Fault Refusal := .next (evDrop s)

/-! ### The entry point -/

/-- `serve(status_code)` (R160, R161): the class of the status code chooses the rule; for a data byte, acknowledged, so do
`state` and `full(inbound)`. -/
def serve (sc : Byte) (s : State) : Except Fault State :=
  match statusClass s.cfg sc with
  | .slaW => .ok (evStartWrite s)
  | .gcW => .ok (evStartWrite s)
  | .rxDataAck =>
    match s.state with
    | .addressing => .ok (evSelector s)
    | .writing => if bufFull s.cfg.capacity s.inbound then .ok (evOverflow s) else evPayload s
    | .idle => .ok (evDrop s)
  | .rxDataNack => .ok (evDataNack s)
  | .stopOrRestart => evStop s
  | .slaR => evStartRead s
  | .txDataAck => evTransmit s
  | .txDataNack => .ok (evReadEnd s)
  | .busError => .ok (evDrop s)
  | .gcDataNack => .ok (evDrop s)
  | .other => .ok (evDrop s)

/-- `serve` (R160). -/
def execServe (sc : Byte) (s : State) : Host.Outcome State Fault Refusal := finish (serve sc s)

end Sys2Proof.Machine
end

