-- ==== Sys2Proof/Machine/RingBuffer.lean ====
section
/-! DEFINITION. The ring-buffer operations on a buffer of the engine (spec 40_ring_buffer.md). -/

namespace Sys2Proof.Machine

/-- `size(b)` (R131). -/
def execRbSize (b : Buf) (s : State) : Host.Outcome State Fault Refusal :=
  .next (s.returning (.nat (bufSize (s.getBuf b))))

/-- `full(b)` (R132). -/
def execRbFull (b : Buf) (s : State) : Host.Outcome State Fault Refusal :=
  .next (s.returning (.bool (bufFull s.cfg.capacity (s.getBuf b))))

/-- `empty(b)` (R133). -/
def execRbEmpty (b : Buf) (s : State) : Host.Outcome State Fault Refusal :=
  .next (s.returning (.bool (bufEmpty (s.getBuf b))))

/-- `push_back(b, v)` (R134). -/
def execRbPushBack (b : Buf) (v : Byte) (s : State) : Host.Outcome State Fault Refusal :=
  finish ((pushBack s.cfg.capacity (s.getBuf b) v).map (s.setBuf b))

/-- `push_front(b, v)` (R135). -/
def execRbPushFront (b : Buf) (v : Byte) (s : State) : Host.Outcome State Fault Refusal :=
  finish ((pushFront s.cfg.capacity (s.getBuf b) v).map (s.setBuf b))

/-- `pop_front(b)` (R136). -/
def execRbPopFront (b : Buf) (s : State) : Host.Outcome State Fault Refusal :=
  finish ((popFront (s.getBuf b)).map fun r => (s.setBuf b r.2).returning (.byte r.1))

/-- `pop_back(b)` (R139). -/
def execRbPopBack (b : Buf) (s : State) : Host.Outcome State Fault Refusal :=
  finish ((popBack (s.getBuf b)).map fun r => (s.setBuf b r.2).returning (.byte r.1))

/-- `clear(b)` (R140). -/
def execRbClear (b : Buf) (s : State) : Host.Outcome State Fault Refusal :=
  .next (s.clearBuf b)

end Sys2Proof.Machine
end

