-- ==== Sys2Proof/Machine/Dispatch.lean ====
section
/-! DEFINITION. One arm per instruction, in the order of spec/opcode_table.json's families. -/

namespace Sys2Proof.Machine

def exec (i : Instr) (s : State) : Host.Outcome State Fault Refusal :=
  match i with
  | .slaW => Sys2Proof.Machine.execSlaW s
  | .gcW => Sys2Proof.Machine.execGcW s
  | .rxDataAckAddressing => Sys2Proof.Machine.execRxDataAckAddressing s
  | .rxDataAckWriting => Sys2Proof.Machine.execRxDataAckWriting s
  | .rxDataAckOverflow => Sys2Proof.Machine.execRxDataAckOverflow s
  | .rxDataAckIdle => Sys2Proof.Machine.execRxDataAckIdle s
  | .rxDataAckGcAddressing => Sys2Proof.Machine.execRxDataAckGcAddressing s
  | .rxDataAckGcWriting => Sys2Proof.Machine.execRxDataAckGcWriting s
  | .rxDataAckGcOverflow => Sys2Proof.Machine.execRxDataAckGcOverflow s
  | .rxDataAckGcIdle => Sys2Proof.Machine.execRxDataAckGcIdle s
  | .rxDataNack => Sys2Proof.Machine.execRxDataNack s
  | .gcDataNack => Sys2Proof.Machine.execGcDataNack s
  | .stopOrRestart => Sys2Proof.Machine.execStopOrRestart s
  | .slaR => Sys2Proof.Machine.execSlaR s
  | .txDataAck => Sys2Proof.Machine.execTxDataAck s
  | .txDataNack => Sys2Proof.Machine.execTxDataNack s
  | .busError => Sys2Proof.Machine.execBusError s
  | .other statusCode => Sys2Proof.Machine.execOther statusCode s
  | .wrSetpoint v => Sys2Proof.Machine.execWrSetpoint v s
  | .wrMode sp m => Sys2Proof.Machine.execWrMode sp m s
  | .wrP v => Sys2Proof.Machine.execWrP v s
  | .wrI v => Sys2Proof.Machine.execWrI v s
  | .wrD v => Sys2Proof.Machine.execWrD v s
  | .wrF v => Sys2Proof.Machine.execWrF v s
  | .wrAngle payload => Sys2Proof.Machine.execWrAngle payload s
  | .wrVelocity payload => Sys2Proof.Machine.execWrVelocity payload s
  | .wrCurrent payload => Sys2Proof.Machine.execWrCurrent payload s
  | .wrUnrecognized selector payload => Sys2Proof.Machine.execWrUnrecognized selector payload s
  | .wrBadLength selector payload => Sys2Proof.Machine.execWrBadLength selector payload s
  | .wrModeInvalid sp modeByte => Sys2Proof.Machine.execWrModeInvalid sp modeByte s
  | .rdSetpoint => Sys2Proof.Machine.execRdSetpoint s
  | .rdMode => Sys2Proof.Machine.execRdMode s
  | .rdP => Sys2Proof.Machine.execRdP s
  | .rdI => Sys2Proof.Machine.execRdI s
  | .rdD => Sys2Proof.Machine.execRdD s
  | .rdF => Sys2Proof.Machine.execRdF s
  | .rdAngle => Sys2Proof.Machine.execRdAngle s
  | .rdVelocity => Sys2Proof.Machine.execRdVelocity s
  | .rdCurrent => Sys2Proof.Machine.execRdCurrent s
  | .rdUnrecognized selector => Sys2Proof.Machine.execRdUnrecognized selector s
  | .serve statusCode => Sys2Proof.Machine.execServe statusCode s
  | .onWrite selector => Sys2Proof.Machine.execOnWrite selector s
  | .onRead selector => Sys2Proof.Machine.execOnRead selector s
  | .transitionState newMode sp => Sys2Proof.Machine.execTransitionState newMode sp s
  | .setP v => Sys2Proof.Machine.execSetP v s
  | .setI v => Sys2Proof.Machine.execSetI v s
  | .setD v => Sys2Proof.Machine.execSetD v s
  | .setF v => Sys2Proof.Machine.execSetF v s
  | .setSetpoint v => Sys2Proof.Machine.execSetSetpoint v s
  | .getP => Sys2Proof.Machine.execGetP s
  | .getI => Sys2Proof.Machine.execGetI s
  | .getD => Sys2Proof.Machine.execGetD s
  | .getF => Sys2Proof.Machine.execGetF s
  | .getSetpoint => Sys2Proof.Machine.execGetSetpoint s
  | .getMode => Sys2Proof.Machine.execGetMode s
  | .getAngle => Sys2Proof.Machine.execGetAngle s
  | .getVel => Sys2Proof.Machine.execGetVel s
  | .getCurrent => Sys2Proof.Machine.execGetCurrent s
  | .getOutput => Sys2Proof.Machine.execGetOutput s
  | .tick encNew curNew => Sys2Proof.Machine.execTick encNew curNew s
  | .rbSize b => Sys2Proof.Machine.execRbSize b s
  | .rbFull b => Sys2Proof.Machine.execRbFull b s
  | .rbEmpty b => Sys2Proof.Machine.execRbEmpty b s
  | .rbPushBack b v => Sys2Proof.Machine.execRbPushBack b v s
  | .rbPushFront b v => Sys2Proof.Machine.execRbPushFront b v s
  | .rbPopFront b => Sys2Proof.Machine.execRbPopFront b s
  | .rbPopBack b => Sys2Proof.Machine.execRbPopBack b s
  | .rbClear b => Sys2Proof.Machine.execRbClear b s
  | .encodeF32 v => Sys2Proof.Machine.execEncodeF32 v s
  | .decodeF32 w0 w1 w2 w3 => Sys2Proof.Machine.execDecodeF32 w0 w1 w2 w3 s
  | .pushFloat b v => Sys2Proof.Machine.execPushFloat b v s
  | .popFloat b => Sys2Proof.Machine.execPopFloat b s
  | .pushBytePopByte b op => Sys2Proof.Machine.execPushBytePopByte b op s

end Sys2Proof.Machine
end

