-- ==== Sys2Proof/Machine/Fetch.lean ====
section
/-! DEFINITION. How the next request becomes an instruction: which parts of the state the decoder reads (spec R79, R99,
R116, R161), and how a request is delivered (R26, R38, R314). -/

namespace Sys2Proof.Machine

/-- What the decoder reads for a request: for an event the status code, `state` and `full(inbound)` (R116, R161); for a
register operation `address` and, for a write, the content of `inbound` (R99). -/
def fetch (s : State) : Request → Encoded
  | .event sc _ => .event sc s.state (bufFull s.cfg.capacity s.inbound)
  | .regWrite => .write s.address s.inbound
  | .regRead => .read s.address
  | .call i => .call i

/-- A state with its outputs cleared: a step begins (log 14). -/
def State.quiet (s : State) : State := { s with out := {} }

/-- A request is delivered: it leaves the queue. An event puts its byte into the data register (R26); a register write
takes its payload out of `inbound`, where the decoder found it; a register read finds `outbound` just cleared (R230). A call
supplies no byte, `serve` called directly neither: `DR.read()` then gives whatever `DR` holds, left by an earlier event, an
earlier `DR.write` or the reset. R26 does not say; it is the model's choice (log 31). -/
def State.deliver (s : State) (r : Request) (rest : List Request) : State :=
  let s := { s.quiet with pending := rest }
  match r with
  | .event _ d => s.interruptEntry d
  | .regWrite => (s.invoked (.onWrite s.address s.inbound)).clearBuf .inbound
  | .regRead => (s.invoked (.onRead s.address)).clearBuf .outbound
  | .call _ => s

/-- A request that starts a call of `serve`, which the interrupt mask holds back (R37). -/
def Request.isInterrupt : Request → Bool
  | .event _ _ => true
  | .call (.serve _) => true
  | .call _ => false
  | .regWrite => false
  | .regRead => false

/-- The requests a run of the block consists of: bus events and ticks (R74). -/
def Request.isNative : Request → Bool
  | .event _ _ => true
  | .call (.tick _ _) => true
  | .call _ => false
  | .regWrite => false
  | .regRead => false

/-- Where the step fetches its next instruction, when the table's word `w` is to be it: the request stands at the head of
the queue, and a register write finds its selector in `address` and its payload in `inbound` (log 3, log 4). -/
def placeEncoded (s : State) : Encoded → State
  | .event sc _ _ => { s with pending := .event sc s.dr :: s.pending }
  | .write a p => { s with address := a, inbound := p, pending := .regWrite :: s.pending }
  | .read a => { s with address := a, pending := .regRead :: s.pending }
  | .call i => { s with pending := .call i :: s.pending }

/-- The state with a word of the table placed for the next step; unchanged where the word is no row's. -/
def placeTableWord (s : State) (nbits w : Nat) : State :=
  if nbits = 8 ∧ w < 256 then placeEncoded s (tableEncoded s.cfg (BitVec.ofNat 8 w)) else s

end Sys2Proof.Machine
end

