-- ==== Sys2Proof/Machine/Step.lean ====
section
/-! DEFINITION. One step of the block: the oldest request is fetched, decoded and executed (spec 20_memory.md R74, R75;
log 2). -/

namespace Sys2Proof.Machine

/-- One step. A configuration that is not injective is refused (R100, U12). With nothing pending nothing happens (R179,
U17; log 13). While `IM` is 1 no call of `serve` starts: the event stays pending (R37, R76; log 12). -/
def step (s : State) : Host.Outcome State Fault Refusal :=
  if s.cfg.ok then
    match s.pending with
    | [] => .next s.quiet
    | r :: rest =>
      if s.im && r.isInterrupt then .next s.quiet
      else
        match decode s.cfg (fetch s r) with
        | .error e => .refused (.undecodable e)
        | .ok i => exec i (s.deliver r rest)
  else .refused .badConfig

/-- The state whose next step fetches the instruction of a word of the opcode table (log 3, log 4). -/
def State.withFetchWord (s : State) (nbits w : Nat) : State := placeTableWord s nbits w

end Sys2Proof.Machine
end

