-- ==== Sys2Proof/Machine/Bus.lean ====
section
/-! DEFINITION. The bus controller's side, as far as the spec gives it: a transaction as the host sends it (30_encoding.md
R90 to R93), the bus addresses the device answers (R60 (3), R91, `OWN_ADDR`, `GC_ENABLE`), and the events a transaction
produces (R98, R122). A received byte is acknowledged or not by `ack_en`, which each call of `serve` sets (R27), so the
events of a write follow from the state that the earlier ones leave. The machine admits every event sequence
(92_eei_decisions.md D32); these are a named subset of inputs. The layout of the address byte, the end of a read and what a
clear `ack_en` does are general knowledge in the spec (log 22). -/

namespace Sys2Proof.Machine

/-- The masked status value of a raw status register: bits 7..3 (R97). `status_code` is taken as already masked; no rule
depends on this (log 22). -/
def statusOfRaw (raw : Byte) : Byte := raw &&& 0xF8#8

/-- A transaction of format `TW` or `TR` (R91, R92). -/
inductive Transaction where
  | write (busAddr : BitVec 7) (sub : Option Byte) (payload : List Byte)
  /-- The master takes `k` bytes and does not acknowledge the last. -/
  | read (busAddr : BitVec 7) (k : Nat)
deriving DecidableEq, Repr

/-- How the device is addressed (R60, R91). -/
inductive Addressed where
  | own
  | generalCall
  | no
deriving DecidableEq, Repr

/-- Does the device answer a write to this bus address (R60 (3), R322)? Where `OWN_ADDR` is itself 0000000, the address of
the general call, a write to it is reported as one to the own address: the spec does not say which (R60, R91, R322); it is
the model's choice (log 32). -/
def addressedForWrite (c : Config) (busAddr : BitVec 7) : Addressed :=
  if busAddr = c.ownAddr then .own
  else if busAddr = 0#7 ∧ c.gcEnable then .generalCall
  else .no

/-- An event of a table line, carrying a data-register byte; none where `StatusMap` lists no code for the line. -/
def eventOf (c : Config) (r : StatusRow) (d : Byte) : Option Request := (codeOf c r).map fun sc => .event sc d

/-- The address byte (R91, R92): the bus address in bits 7..1, the direction in bit 0. -/
def addressByte (busAddr : BitVec 7) (isRead : Bool) : Byte := busAddr ++ BitVec.ofBool isRead

/-- The state after an event has been served, whose result the controller latches as `ack_en` before the next byte (R27,
R315). None where serving it faults, and for a request that is no event. -/
def afterEvent (s : State) : Request → Option State
  | .event sc d => (serve sc (s.interruptEntry d)).toOption
  | .regWrite => none
  | .regRead => none
  | .call _ => none

/-- The state after a sequence of events has been served. -/
def afterEvents (s : State) (es : List Request) : Option State := es.foldlM afterEvent s

/-- The events from the first byte after the address to the end of a write (R98). A byte received while `ack_en` is 1 is
acknowledged, reported on the line `data` and served. One received while `ack_en` is 0 is reported on the line `nack`, and
there the controller leaves the transaction: it reports neither the bytes left nor the stop (95_test_vectors.md P4 (b)). -/
def receiveEvents (data nack : StatusRow) : List Byte → State → Option (List Request)
  | [], s => do
    let last ← eventOf s.cfg .stopOrRestart 0#8
    return [last]
  | b :: bs, s =>
    if s.ackEn then do
      let e ← eventOf s.cfg data b
      let t ← afterEvent s e
      let es ← receiveEvents data nack bs t
      return e :: es
    else do
      let e ← eventOf s.cfg nack b
      return [e]

/-- The events of a write (R98): addressed, then what the bytes and the stop produce. -/
def writeEvents (start data nack : StatusRow) (a : Byte) (bytes : List Byte) (s : State) : Option (List Request) := do
  let e ← eventOf s.cfg start a
  let t ← afterEvent s e
  let es ← receiveEvents data nack bytes t
  return e :: es

/-- The events of a read of `k` bytes (R98): addressed, then an acknowledge for every byte but the last. A read of no
byte is not a transaction of R98. -/
def readEvents (c : Config) (a : Byte) (k : Nat) : Option (List Request) :=
  if k = 0 then none
  else do
    let first ← eventOf c .slaR a
    let ack ← eventOf c .txDataAck 0#8
    let nack ← eventOf c .txDataNack 0#8
    return first :: List.replicate (k - 1) ack ++ [nack]

/-- The events a transaction produces at this device (R98); no event where the device is not addressed, or where `ack_en` is
0, so that it does not answer (70_reset_and_hazards.md R342). -/
def busEvents (s : State) (t : Transaction) : Option (List Request) :=
  if s.ackEn then
    match t with
    | .write busAddr sub payload =>
      match addressedForWrite s.cfg busAddr with
      | .own => writeEvents .slaW .rxDataAck .rxDataNack (addressByte busAddr false) (sub.toList ++ payload) s
      | .generalCall => writeEvents .gcW .rxDataAckGc .gcDataNack (addressByte busAddr false) (sub.toList ++ payload) s
      | .no => some []
    | .read busAddr k =>
      if busAddr = s.cfg.ownAddr then readEvents s.cfg (addressByte busAddr true) k else some []
  else some []

/-- `WRITE_REG(sel, bytes)` (R122), sent to the device in state `s`. -/
def writeReg (s : State) (sel : Byte) (bytes : List Byte) : Option (List Request) :=
  busEvents s (.write s.cfg.ownAddr (some sel) bytes)

/-- `READ_REG(sel, k)` (R93, R122), sent to the device in state `s`; the read finds the state that the selection leaves. -/
def readRegister (s : State) (sel : Byte) (k : Nat) : Option (List Request) := do
  let select ← busEvents s (.write s.cfg.ownAddr (some sel) [])
  let t ← afterEvents s select
  let read ← busEvents t (.read s.cfg.ownAddr k)
  return select ++ read

end Sys2Proof.Machine
end

