-- ==== Sys2Proof/Safety.lean ====
section
/-! DEFINITION. What a safe run is: the invariants of the spec (40_ring_buffer.md R130, 42_engine_events.md R177,
10_state.md R37), in the terms the statements use. -/

namespace Sys2Proof.Machine

/-- Both buffers are within their capacity (R130): the canonical form of the block's only memories. -/
def State.buffersWf (s : State) : Bool :=
  decide (s.inbound.length ≤ s.cfg.capacity) && decide (s.outbound.length ≤ s.cfg.capacity)

/-- What every step keeps: an accepted configuration, buffers within capacity (R130), the interrupt mask clear between
steps (R37). -/
structure State.Inv (s : State) : Prop where
  cfg_ok : s.cfg.ok = true
  inbound_le : s.inbound.length ≤ s.cfg.capacity
  outbound_le : s.outbound.length ≤ s.cfg.capacity
  im_clear : s.im = false

/-- What a run of bus events and ticks keeps besides (R177 (3), (5)): no payload while a selector is awaited, and at most
three bytes waiting to be sent. -/
structure State.EngineInv (s : State) : Prop extends State.Inv s where
  addressing_empty : s.state = .addressing → s.inbound = []
  outbound_le_three : s.outbound.length ≤ 3

/-- The outcome is no fault (R177 (2)). -/
def NoFault (o : Host.Outcome State Fault Refusal) : Prop := ∀ f, o ≠ .fault f

end Sys2Proof.Machine
end

