-- ==== Sys2Proof/Certificates/Slice0/Obligations.lean ====
section
/-! DEFINITION. The statements for the provers. Each docstring names the rule of spec/ it formalises. The helpers at the
head spell out, without the model's own update functions, what a statement says of the next state. -/

namespace Sys2Proof.Claims

open Sys2Proof.Machine

/-- The state after an operation that returns `v` and changes nothing else. -/
def gives (s : State) (v : Value) : State := { s with out := { s.out with value := some v } }

/-- The state after `serve` returned `b`: the value returned, latched as `ack_en` (R27). -/
def served (s : State) (b : Bool) : State := { s with ackEn := b, out := { s.out with value := some (.bool b) } }

/-- The state with the content of one buffer replaced. -/
def withBuf (s : State) (b : Buf) (x : List Byte) : State :=
  match b with
  | .inbound => { s with inbound := x }
  | .outbound => { s with outbound := x }

/-- The content of one buffer. -/
def bufOf (s : State) (b : Buf) : List Byte :=
  match b with
  | .inbound => s.inbound
  | .outbound => s.outbound

/-- Field `x` of an instance. -/
def fieldOf (q : Pid) : PidField → F32
  | .p => q.p
  | .i => q.i
  | .d => q.d
  | .f => q.f
  | .setpoint => q.setpoint

/-- The setter call and the write row of a field (R262 to R266, R202 to R206). -/
def setterOf : PidField → F32 → Instr
  | .p => .setP
  | .i => .setI
  | .d => .setD
  | .f => .setF
  | .setpoint => .setSetpoint

/-- The write row of a field. -/
def writeRowOf : PidField → F32 → Instr
  | .p => .wrP
  | .i => .wrI
  | .d => .wrD
  | .f => .wrF
  | .setpoint => .wrSetpoint

/-- The getter call of a field (R267, R269 to R272). -/
def getterOf : PidField → Instr
  | .p => .getP
  | .i => .getI
  | .d => .getD
  | .f => .getF
  | .setpoint => .getSetpoint

/-- The read row of a field (R231 to R235). -/
def readRowOf : PidField → Instr
  | .p => .rdP
  | .i => .rdI
  | .d => .rdD
  | .f => .rdF
  | .setpoint => .rdSetpoint

/-- The selector of a field (R100). -/
def selectorOfField (c : Config) : PidField → Byte
  | .p => c.selP
  | .i => c.selI
  | .d => c.selD
  | .f => c.selF
  | .setpoint => c.selSetpoint

/-- The accumulator `PidOnSet(x, v, q)` gives for the instance of mode `m` (R292, R293): unchanged by the default hook; what
another hook gives is the opaque constant. -/
def hookResult (c : Config) (m : Mode) (x : PidField) (v : F32) (q : Pid) : PidAcc :=
  match c.pidOnSet with
  | .keepAcc => q.acc
  | .other code => Config.openPidOnSet code x v q (c.pidClamp.get m)

/-- `t` differs from `s` in the field `x` of `pid[m]`, which holds `v`, and in that instance's accumulator, which went
through the hook `PidOnSet` (R292, R293); in nothing else. -/
def FieldWritten (s t : State) (m : Mode) (x : PidField) (v : F32) : Prop :=
  fieldOf (t.pid.get m) x = v ∧
  (∀ y, y ≠ x → fieldOf (t.pid.get m) y = fieldOf (s.pid.get m) y) ∧
  (t.pid.get m).acc = hookResult s.cfg m x v { t.pid.get m with acc := (s.pid.get m).acc } ∧
  (∀ m', m' ≠ m → t.pid.get m' = s.pid.get m') ∧
  { t with pid := s.pid } = s

/-- `t` is `s` after a switch to another mode (R260, R291, R292): `mode` is `m`; the controller entered keeps its gains, has
the setpoint `sp`, and its accumulator is what the setpoint's hook makes of `PID_ACC0`; the other two controllers and
everything else are as they were. -/
def Switched (s t : State) (m : Mode) (sp : F32) : Prop :=
  t.mode = m ∧
  (t.pid.get m).setpoint = sp ∧
  (∀ y, y ≠ .setpoint → fieldOf (t.pid.get m) y = fieldOf (s.pid.get m) y) ∧
  (t.pid.get m).acc = hookResult s.cfg m .setpoint sp { t.pid.get m with acc := s.cfg.pidAcc0 } ∧
  (∀ m', m' ≠ m → t.pid.get m' = s.pid.get m') ∧
  { t with mode := s.mode, pid := s.pid } = s

/-- The four bytes of a pattern in wire order (R101). -/
def wire (o : FloatOrder) (v : F32) : List Byte :=
  match o with
  | .le => [v.extractLsb' 0 8, v.extractLsb' 8 8, v.extractLsb' 16 8, v.extractLsb' 24 8]
  | .be => [v.extractLsb' 24 8, v.extractLsb' 16 8, v.extractLsb' 8 8, v.extractLsb' 0 8]

/-- The number a finite binary32 pattern denotes, normal or subnormal: bit 31 the sign, bits 30..23 the exponent, bits
22..0 the fraction (R42); none for the patterns whose exponent is all ones. -/
def f32Denotes (v : F32) : Option ℚ :=
  let e := (v.extractLsb' 23 8).toNat
  let frac := (v.extractLsb' 0 23).toNat
  let sign : ℚ := if v.getLsbD 31 then -1 else 1
  if e = 255 then none
  else if e = 0 then some (sign * frac * (2 : ℚ) ^ (-149 : ℤ))
  else some (sign * (2 ^ 23 + frac : ℕ) * (2 : ℚ) ^ ((e : ℤ) - 150))

/-- The payload a read of a selector produces (R230 to R240). -/
def readPayload (s : State) (a : Byte) : List Byte :=
  if a = s.cfg.selSetpoint then wire s.cfg.floatOrder (s.pid.get s.mode).setpoint
  else if a = s.cfg.selMode then [s.cfg.modeEnc.get s.mode]
  else if a = s.cfg.selP then wire s.cfg.floatOrder (s.pid.get s.mode).p
  else if a = s.cfg.selI then wire s.cfg.floatOrder (s.pid.get s.mode).i
  else if a = s.cfg.selD then wire s.cfg.floatOrder (s.pid.get s.mode).d
  else if a = s.cfg.selF then wire s.cfg.floatOrder (s.pid.get s.mode).f
  else if a = s.cfg.selAngle then wire s.cfg.floatOrder s.angle
  else if a = s.cfg.selVelocity then wire s.cfg.floatOrder s.velocity
  else if a = s.cfg.selCurrent then wire s.cfg.floatOrder s.currentReading
  else [s.cfg.sentinel]

/-- Under the default `StatusMap` the status code `sc` is decoded as `i`, in whatever state the engine is (R96). -/
def CodeIs (sc : Byte) (i : Instr) : Prop :=
  ∀ (st : EngineState) (full : Bool), decode Config.default (.event sc st full) = .ok i

/-- The engine's next state and the result of `serve`, by class and present state (R176): what the table gives where
`outbound` is the buffer a transmitter event finds when it looks for a byte. -/
def tableNext (ev : EventClass) (st : EngineState) (inboundFull : Bool) (out : List Byte) : EngineState × Bool :=
  match ev, st with
  | .slaW, _ => (.addressing, true)
  | .gcW, _ => (.addressing, true)
  | .rxDataAck, .idle => (.idle, true)
  | .rxDataAck, .addressing => (.writing, true)
  | .rxDataAck, .writing => if inboundFull then (.idle, false) else (.writing, true)
  | .rxDataNack, .addressing => (.addressing, true)
  | .rxDataNack, .idle => (.idle, true)
  | .rxDataNack, .writing => (.idle, true)
  | .stopOrRestart, _ => (.idle, true)
  | .slaR, st => if out = [] then (.idle, false) else (st, decide (2 ≤ out.length))
  | .txDataAck, st => if out = [] then (.idle, false) else (st, decide (2 ≤ out.length))
  | .txDataNack, _ => (.idle, true)
  | .busError, _ => (.idle, true)
  | .gcDataNack, _ => (.idle, true)
  | .other, _ => (.idle, true)

/-- What a transmitter event finds in `outbound`: `SLA_R` the payload just read, every other event what is there. -/
def outboundSeen (s : State) (ev : EventClass) : List Byte :=
  match ev with
  | .slaR => readPayload s s.address
  | .slaW | .gcW | .rxDataAck | .rxDataNack | .stopOrRestart | .txDataAck | .txDataNack | .busError | .gcDataNack
  | .other => s.outbound

end Sys2Proof.Claims

open Sys2Proof Sys2Proof.Machine Sys2Proof.Claims

/-! ### Ring buffer and codec -/

/-- R131, R132, R133: `size`, `full` and `empty` return what they say and change nothing. -/
def Obligations.BufferPredicatesReport : Prop :=
  ∀ (b : Buf) (s : State),
    exec (.rbSize b) s = .next (gives s (.nat (bufOf s b).length)) ∧
    exec (.rbFull b) s = .next (gives s (.bool (decide ((bufOf s b).length = s.cfg.capacity)))) ∧
    exec (.rbEmpty b) s = .next (gives s (.bool (decide (bufOf s b = []))))

/-- R134, R135: a push appends at its end, or is fault `PushFull` on a full buffer. -/
def Obligations.PushAtEitherEnd : Prop :=
  ∀ (b : Buf) (v : Byte) (s : State),
    ((bufOf s b).length ≠ s.cfg.capacity →
      exec (.rbPushBack b v) s = .next (withBuf s b (bufOf s b ++ [v])) ∧
      exec (.rbPushFront b v) s = .next (withBuf s b ([v] ++ bufOf s b))) ∧
    ((bufOf s b).length = s.cfg.capacity →
      exec (.rbPushBack b v) s = .fault .pushFull ∧ exec (.rbPushFront b v) s = .fault .pushFull)

/-- R136, R139: a pop returns and removes the byte at its end, or is fault `PopEmpty` on an empty buffer. -/
def Obligations.PopAtEitherEnd : Prop :=
  ∀ (b : Buf) (s : State),
    (∀ (v : Byte) (rest : List Byte), bufOf s b = v :: rest →
      exec (.rbPopFront b) s = .next (gives (withBuf s b rest) (.byte v))) ∧
    (∀ (v : Byte) (rest : List Byte), bufOf s b = rest ++ [v] →
      exec (.rbPopBack b) s = .next (gives (withBuf s b rest) (.byte v))) ∧
    (bufOf s b = [] → exec (.rbPopFront b) s = .fault .popEmpty ∧ exec (.rbPopBack b) s = .fault .popEmpty)

/-- R140: `clear` removes every byte of its buffer and changes nothing else. -/
def Obligations.ClearEmptiesBuffer : Prop :=
  ∀ (b : Buf) (s : State), exec (.rbClear b) s = .next (withBuf s b [])

/-- R150, R151: the codec's two functions, in both byte orders. -/
def Obligations.CodecFollowsByteOrder : Prop :=
  ∀ (v : F32) (w0 w1 w2 w3 : Byte) (s : State),
    (s.cfg.floatOrder = .le →
      exec (.encodeF32 v) s =
        .next (gives s (.bytes (v.extractLsb' 0 8) (v.extractLsb' 8 8) (v.extractLsb' 16 8) (v.extractLsb' 24 8))) ∧
      exec (.decodeF32 w0 w1 w2 w3) s = .next (gives s (.f32 (w3 ++ w2 ++ w1 ++ w0)))) ∧
    (s.cfg.floatOrder = .be →
      exec (.encodeF32 v) s =
        .next (gives s (.bytes (v.extractLsb' 24 8) (v.extractLsb' 16 8) (v.extractLsb' 8 8) (v.extractLsb' 0 8))) ∧
      exec (.decodeF32 w0 w1 w2 w3) s = .next (gives s (.f32 (w0 ++ w1 ++ w2 ++ w3))))

/-- R150 (corner cases), R154: `encode_f32` and `decode_f32` are inverse to each other in either byte order. -/
def Obligations.CodecIsBijection : Prop :=
  ∀ (o : FloatOrder),
    (∀ v : F32, match encodeF32 o v with | (w0, w1, w2, w3) => decodeF32 o w0 w1 w2 w3 = v) ∧
    (∀ w0 w1 w2 w3 : Byte, encodeF32 o (decodeF32 o w0 w1 w2 w3) = (w0, w1, w2, w3))

/-- R152, R153: `push_float` appends the four wire bytes or is fault `PushFull`; `pop_float` takes four bytes from the front
and returns the pattern they encode, or is fault `PopEmpty`. -/
def Obligations.FloatsMoveThroughBuffers : Prop :=
  ∀ (b : Buf) (v : F32) (s : State),
    ((bufOf s b).length + 4 ≤ s.cfg.capacity →
      exec (.pushFloat b v) s = .next (withBuf s b (bufOf s b ++ wire s.cfg.floatOrder v))) ∧
    (s.cfg.capacity < (bufOf s b).length + 4 → (bufOf s b).length ≤ s.cfg.capacity →
      exec (.pushFloat b v) s = .fault .pushFull) ∧
    (∀ rest : List Byte, bufOf s b = wire s.cfg.floatOrder v ++ rest →
      exec (.popFloat b) s = .next (gives (withBuf s b rest) (.f32 v))) ∧
    ((bufOf s b).length < 4 → exec (.popFloat b) s = .fault .popEmpty) ∧
    (4 ≤ (bufOf s b).length → ∃ x rest, bufOf s b = wire s.cfg.floatOrder x ++ rest)

/-- R155: `push_byte` is `push_back` and `pop_byte` is `pop_front`; each completes under the same condition. -/
def Obligations.BytesMoveThroughBuffers : Prop :=
  ∀ (b : Buf) (v : Byte) (s : State),
    exec (.pushBytePopByte b (.push v)) s = exec (.rbPushBack b v) s ∧
    exec (.pushBytePopByte b .pop) s = exec (.rbPopFront b) s ∧
    ((bufOf s b).length ≠ s.cfg.capacity →
      exec (.pushBytePopByte b (.push v)) s = .next (withBuf s b (bufOf s b ++ [v]))) ∧
    (∀ rest : List Byte, bufOf s b = v :: rest →
      exec (.pushBytePopByte b .pop) s = .next (gives (withBuf s b rest) (.byte v)))

/-! ### Device Control State -/

/-- R262 to R266: a setter completes in every state and writes its field of the active controller, through the hook. -/
def Obligations.SettersWriteActiveController : Prop :=
  ∀ (x : PidField) (v : F32) (s : State),
    ∃ t, exec (setterOf x v) s = .next t ∧ FieldWritten s t s.mode x v

/-- R267, R269 to R273, R276: the getters return the stored value and change nothing. -/
def Obligations.GettersReturnStoredValues : Prop :=
  ∀ (s : State),
    (∀ x, exec (getterOf x) s = .next (gives s (.f32 (fieldOf (s.pid.get s.mode) x)))) ∧
    exec .getMode s = .next (gives s (.mode s.mode)) ∧
    exec .getCurrent s = .next (gives s (.f32 s.currentReading))

/-- R274: `get_angle` returns the pattern that denotes exactly `current_encoder / 16`, +0.0 at zero, and changes nothing. That
a pattern denotes a number by binary32's layout, and that the division is exact, is log 21 (PRESUMED). -/
def Obligations.AngleIsExactSixteenths : Prop :=
  ∀ s : State, ∃ x : F32,
    exec .getAngle s = .next (gives s (.f32 x)) ∧
    f32Denotes x = some ((s.currentEncoder.toNat : ℚ) / 16) ∧
    (s.currentEncoder = 0#16 → x = 0#32)

/-- R275: `get_vel` returns the pattern that denotes exactly the mathematical difference of the two samples, divided by 16,
+0.0 where they are equal, and changes nothing. That a pattern denotes a number by binary32's layout, and that the division
is exact, is log 21 (PRESUMED). -/
def Obligations.VelocityIsExactDifference : Prop :=
  ∀ s : State, ∃ x : F32,
    exec .getVel s = .next (gives s (.f32 x)) ∧
    f32Denotes x = some (((s.currentEncoder.toNat : ℚ) - (s.prevEncoder.toNat : ℚ)) / 16) ∧
    (s.currentEncoder = s.prevEncoder → x = 0#32)

/-- R260: `transition_state` to the present mode changes nothing; to another mode it assigns the mode, resets the controller
entered and applies the setpoint to it. -/
def Obligations.TransitionSwitchesMode : Prop :=
  ∀ (m : Mode) (sp : F32) (s : State),
    (m = s.mode → exec (.transitionState m sp) s = .next s) ∧
    (m ≠ s.mode → ∃ t, exec (.transitionState m sp) s = .next t ∧ Switched s t m sp)

/-- R261: switching away and back forgets the accumulator: two states that differ only in the active controller's
accumulator become the same state. -/
def Obligations.SwitchBackForgetsAccumulator : Prop :=
  ∀ (s : State) (a : PidAcc) (m : Mode) (sp1 sp2 : F32), m ≠ s.mode →
    ∃ u u' t,
      exec (.transitionState m sp1) s = .next u ∧ exec (.transitionState s.mode sp2) u = .next t ∧
      exec (.transitionState m sp1)
        { s with pid := s.pid.set s.mode { s.pid.get s.mode with acc := a } } = .next u' ∧
      exec (.transitionState s.mode sp2) u' = .next t

/-- R291, R292, R293 with the default `PidOnSet`: a setter leaves every accumulator as it is, and a switch to another mode
leaves `PID_ACC0` in the controller entered and the other accumulators as they are. -/
def Obligations.DefaultHookKeepsAccumulator : Prop :=
  ∀ (x : PidField) (v sp : F32) (m : Mode) (s : State), s.cfg.pidOnSet = .keepAcc →
    (∃ t, exec (setterOf x v) s = .next t ∧ ∀ m', (t.pid.get m').acc = (s.pid.get m').acc) ∧
    (m ≠ s.mode → ∃ t, exec (.transitionState m sp) s = .next t ∧ (t.pid.get m).acc = s.cfg.pidAcc0 ∧
      ∀ m', m' ≠ m → (t.pid.get m').acc = (s.pid.get m').acc)

/-- R277, R278: `get_output` feeds the metric of the mode to the active controller, returns the output, advances that
controller's accumulator and changes nothing else. (That nothing else advances an accumulator is
`OnlyOutputAdvancesAccumulator`.) -/
def Obligations.OutputAdvancesAccumulatorOnly : Prop :=
  ∀ s : State, ∃ t out,
    exec .getOutput s = .next t ∧
    (out, (t.pid.get s.mode).acc) =
      Config.pidOutput s.cfg.pidLaw (s.pid.get s.mode).p (s.pid.get s.mode).i (s.pid.get s.mode).d (s.pid.get s.mode).f
        (s.pid.get s.mode).setpoint (s.pid.get s.mode).acc (s.cfg.pidClamp.get s.mode)
        (if s.cfg.metricFallthrough then s.currentReading
         else match s.mode with
          | .position => s.angle
          | .velocity => s.velocity
          | .current => s.currentReading) ∧
    t.out.value = some (.f32 out) ∧
    (∀ m x, fieldOf (t.pid.get m) x = fieldOf (s.pid.get m) x) ∧
    (∀ m, m ≠ s.mode → t.pid.get m = s.pid.get m) ∧
    gives { t with pid := s.pid } (.f32 out) = gives s (.f32 out)

/-- R278 (its last sentence), R260, R282, with the default `PidOnSet` (log 8): in a step, of whatever instruction, an
accumulator stays as it was, or its controller is the one a mode switch enters and it becomes `PID_ACC0`, or the step is a
call of `get_output` or a tick and it is the active controller's. -/
def Obligations.OnlyOutputAdvancesAccumulator : Prop :=
  ∀ (s t : State) (m : Mode), s.cfg.pidOnSet = .keepAcc → step s = .next t →
    (t.pid.get m).acc = (s.pid.get m).acc ∨
    (m ≠ s.mode ∧ t.mode = m ∧ (t.pid.get m).acc = s.cfg.pidAcc0) ∨
    (m = s.mode ∧ ∃ rest, s.pending = .call .getOutput :: rest ∨ ∃ e x, s.pending = .call (.tick e x) :: rest)

/-- R282: `tick` stores the samples, the old current sample becoming the previous one, drives the motor once with what
`get_output` gives in that state, and ends with `IM` = 0; the engine, the mode, the gains and the setpoints stay. -/
def Obligations.TickSamplesAndDrives : Prop :=
  ∀ (encNew : U16) (curNew : F32) (s : State), ∃ t u out,
    exec (.tick encNew curNew) s = .next t ∧
    exec .getOutput
      { s with prevEncoder := s.currentEncoder, currentEncoder := encNew, currentReading := curNew } = .next u ∧
    u.out.value = some (.f32 out) ∧
    t.prevEncoder = s.currentEncoder ∧ t.currentEncoder = encNew ∧ t.currentReading = curNew ∧
    t.pid = u.pid ∧ t.im = false ∧ t.out = { s.out with drives := s.out.drives ++ [out] } ∧
    (∀ m x, fieldOf (t.pid.get m) x = fieldOf (s.pid.get m) x) ∧
    { t with prevEncoder := s.prevEncoder, currentEncoder := s.currentEncoder, currentReading := s.currentReading,
             pid := s.pid, im := s.im, out := s.out } = s

/-! ### Register map -/

/-- R202 to R206: a write row completes in every state, removes the payload and writes its field of the active
controller; the row is what the decoder reads from the field's selector and four payload bytes in wire order, which a buffer
of four bytes or more can hold. -/
def Obligations.FloatWritesReachActiveController : Prop :=
  ∀ (x : PidField) (v : F32) (s : State),
    (∃ t, exec (writeRowOf x v) s = .next t ∧ FieldWritten { s with inbound := [] } t s.mode x v) ∧
    (s.cfg.ok = true → 4 ≤ s.cfg.capacity →
      decode s.cfg (.write (selectorOfField s.cfg x) (wire s.cfg.floatOrder v)) = .ok (writeRowOf x v))

/-- R207: the mode write removes the payload and performs `transition_state`; it is what the decoder reads from the mode
selector and five payload bytes (in a buffer that can hold them), the setpoint in wire order and then the mode byte; where the byte encodes no mode, the
decoder reads the row for that, which stops there. The default configuration has the source's selector. -/
def Obligations.ModeWriteSwitches : Prop :=
  ∀ (sp : F32) (m : Mode) (s : State),
    (m = s.mode → exec (.wrMode sp m) s = .next { s with inbound := [] }) ∧
    (m ≠ s.mode → ∃ t, exec (.wrMode sp m) s = .next t ∧ Switched { s with inbound := [] } t m sp) ∧
    (s.cfg.ok = true → 5 ≤ s.cfg.capacity →
      decode s.cfg (.write s.cfg.selMode (wire s.cfg.floatOrder sp ++ [s.cfg.modeEnc.get m])) = .ok (.wrMode sp m) ∧
      ∀ mb, (∀ m', s.cfg.modeEnc.get m' ≠ mb) →
        decode s.cfg (.write s.cfg.selMode (wire s.cfg.floatOrder sp ++ [mb])) = .ok (.wrModeInvalid sp mb) ∧
        exec (.wrModeInvalid sp mb) s = .next { s with inbound := [] }) ∧
    Config.default.selMode = 0x02#8

/-- R208 to R211, and the rows of R212 and R213: a write that is ignored removes the payload and changes nothing else; the
decoder reads the first four from the selector of a read-only register, or from a selector of no register, with any
payload of 1 to `CAPACITY` bytes. The default configuration has the source's selector of the angle. -/
def Obligations.IgnoredWritesDrainOnly : Prop :=
  ∀ (a mb : Byte) (p : List Byte) (sp : F32) (s : State),
    exec (.wrAngle p) s = .next { s with inbound := [] } ∧
    exec (.wrVelocity p) s = .next { s with inbound := [] } ∧
    exec (.wrCurrent p) s = .next { s with inbound := [] } ∧
    exec (.wrUnrecognized a p) s = .next { s with inbound := [] } ∧
    exec (.wrBadLength a p) s = .next { s with inbound := [] } ∧
    exec (.wrModeInvalid sp mb) s = .next { s with inbound := [] } ∧
    (s.cfg.ok = true → 1 ≤ p.length → p.length ≤ s.cfg.capacity →
      decode s.cfg (.write s.cfg.selAngle p) = .ok (.wrAngle p) ∧
      decode s.cfg (.write s.cfg.selVelocity p) = .ok (.wrVelocity p) ∧
      decode s.cfg (.write s.cfg.selCurrent p) = .ok (.wrCurrent p) ∧
      (a ∉ s.cfg.selectors → decode s.cfg (.write a p) = .ok (.wrUnrecognized a p))) ∧
    Config.default.selAngle = 0x81#8

/-- R201: `on_write` on the inbound buffer does what the table's row for the selector and the payload does: the checks and
pops of the callback agree with the decoder, and nothing faults, whatever the buffer holds. -/
def Obligations.OnWriteFollowsDecoder : Prop :=
  ∀ (a : Byte) (s : State),
    exec (.onWrite a) s =
      exec (decodeWrite s.cfg a s.inbound)
        { s with out := { s.out with callbacks := s.out.callbacks ++ [.onWrite a s.inbound] } } ∧
    ∃ t, exec (.onWrite a) s = .next t ∧ t.inbound = []

/-- R212: a payload of another length than the selector expects is drained and changes no register; the decoder reads the
table's row `WR_BAD_LENGTH` from it, where it has the 1 to `CAPACITY` bytes of a payload. -/
def Obligations.WrongLengthChangesNothing : Prop :=
  ∀ (a : Byte) (s : State), s.cfg.ok = true →
    ((a = s.cfg.selMode ∧ s.inbound.length ≠ 5) ∨
     ((a = s.cfg.selP ∨ a = s.cfg.selI ∨ a = s.cfg.selD ∨ a = s.cfg.selF ∨ a = s.cfg.selSetpoint) ∧
       s.inbound.length ≠ 4)) →
    exec (.onWrite a) s =
      .next { s with inbound := [],
                     out := { s.out with callbacks := s.out.callbacks ++ [.onWrite a s.inbound] } } ∧
    (1 ≤ s.inbound.length → s.inbound.length ≤ s.cfg.capacity →
      decode s.cfg (.write a s.inbound) = .ok (.wrBadLength a s.inbound))

/-- R213: a five-byte mode write whose mode byte no mode encodes is ignored whole; the decoder reads the table's row for it. -/
def Obligations.InvalidModeByteChangesNothing : Prop :=
  ∀ (w0 w1 w2 w3 mb : Byte) (s : State), s.cfg.ok = true → (∀ m, s.cfg.modeEnc.get m ≠ mb) →
    s.inbound = [w0, w1, w2, w3, mb] →
    exec (.onWrite s.cfg.selMode) s =
      .next { s with inbound := [],
                     out := { s.out with callbacks := s.out.callbacks ++
                       [.onWrite s.cfg.selMode [w0, w1, w2, w3, mb]] } } ∧
    ∃ sp, wire s.cfg.floatOrder sp = [w0, w1, w2, w3] ∧ (5 ≤ s.cfg.capacity →
      decode s.cfg (.write s.cfg.selMode [w0, w1, w2, w3, mb]) = .ok (.wrModeInvalid sp mb))

/-- R231 to R240, R152, R138: each read row pushes its payload onto `outbound`, where there is room, and changes nothing else;
on a buffer without room it is the fault `PushFull` of the push. The row is what the decoder reads from its selector. The
default configuration has the source's selectors and sentinel. -/
def Obligations.ReadRowsPushPayload : Prop :=
  ∀ (a : Byte) (s : State),
    (s.outbound.length + 4 ≤ s.cfg.capacity →
      (∀ x, exec (readRowOf x) s =
        .next { s with outbound := s.outbound ++ wire s.cfg.floatOrder (fieldOf (s.pid.get s.mode) x) }) ∧
      exec .rdAngle s = .next { s with outbound := s.outbound ++ wire s.cfg.floatOrder s.angle } ∧
      exec .rdVelocity s = .next { s with outbound := s.outbound ++ wire s.cfg.floatOrder s.velocity } ∧
      exec .rdCurrent s = .next { s with outbound := s.outbound ++ wire s.cfg.floatOrder s.currentReading }) ∧
    (s.cfg.capacity < s.outbound.length + 4 → s.outbound.length ≤ s.cfg.capacity →
      (∀ x, exec (readRowOf x) s = .fault .pushFull) ∧ exec .rdAngle s = .fault .pushFull ∧
      exec .rdVelocity s = .fault .pushFull ∧ exec .rdCurrent s = .fault .pushFull) ∧
    (s.outbound.length ≠ s.cfg.capacity →
      exec .rdMode s = .next { s with outbound := s.outbound ++ [s.cfg.modeEnc.get s.mode] } ∧
      exec (.rdUnrecognized a) s = .next { s with outbound := s.outbound ++ [s.cfg.sentinel] }) ∧
    (s.outbound.length = s.cfg.capacity →
      exec .rdMode s = .fault .pushFull ∧ exec (.rdUnrecognized a) s = .fault .pushFull) ∧
    (s.cfg.ok = true →
      (∀ x, decode s.cfg (.read (selectorOfField s.cfg x)) = .ok (readRowOf x)) ∧
      decode s.cfg (.read s.cfg.selMode) = .ok .rdMode ∧ decode s.cfg (.read s.cfg.selAngle) = .ok .rdAngle ∧
      decode s.cfg (.read s.cfg.selVelocity) = .ok .rdVelocity ∧
      decode s.cfg (.read s.cfg.selCurrent) = .ok .rdCurrent ∧
      (a ∉ s.cfg.selectors → decode s.cfg (.read a) = .ok (.rdUnrecognized a))) ∧
    Config.default.selMode = 0x02#8 ∧ Config.default.selAngle = 0x81#8 ∧ Config.default.sentinel = 0xFF#8

/-- R230: for every one of the 256 selectors `on_read` pushes the payload of the register onto `outbound`, four bytes for a
float register and one byte otherwise, and changes nothing else. The engine calls it on the buffer it has just cleared;
the statement asks only for room. -/
def Obligations.OnReadPushesPayload : Prop :=
  ∀ (a : Byte) (s : State), s.cfg.ok = true → s.outbound.length + 4 ≤ s.cfg.capacity →
    exec (.onRead a) s =
      .next { s with outbound := s.outbound ++ readPayload s a,
                     out := { s.out with callbacks := s.out.callbacks ++ [.onRead a] } } ∧
    (readPayload s a).length =
      (if a ∈ s.cfg.selectors ∧ a ≠ s.cfg.selMode then 4 else 1)

/-- R154, R268: a float written to a numeric register and read back gives the wire bytes of the value written, where a buffer can hold them. -/
def Obligations.WriteThenReadReturnsValue : Prop :=
  ∀ (x : PidField) (v : F32) (s : State), s.outbound = [] → 4 ≤ s.cfg.capacity →
    ∃ t u, exec (writeRowOf x v) s = .next t ∧ exec (readRowOf x) t = .next u ∧
      u.outbound = wire s.cfg.floatOrder v ∧
      exec (.popFloat .outbound) u = .next (gives { u with outbound := [] } (.f32 v))

/-! ### Engine events -/

/-- R162, R163: addressed for write, in every state: `inbound` is cleared, the engine is in `Addressing`, the result is
`true`, and nothing else changes. The default status codes are `0x60` and `0x70`. -/
def Obligations.StartForWriteAwaitsSelector : Prop :=
  ∀ s : State,
    exec .slaW s = .next (served { s with inbound := [], state := .addressing } true) ∧
    exec .gcW s = .next (served { s with inbound := [], state := .addressing } true) ∧
    CodeIs 0x60#8 .slaW ∧ CodeIs 0x70#8 .gcW

/-- R164: the selector byte is read from `DR`, once, and captured; after the own address and after a general call (default
status codes `0x80` and `0x90`, in `Addressing`). That `DR` still holds its byte after the read is the model's choice (log 33;
R71 leaves it open), and so is what the arms do in another state, where no step runs them (log 15). -/
def Obligations.SelectorByteIsCaptured : Prop :=
  ∀ s : State, ∃ t,
    t = served { s with address := s.dr, state := .writing, out := { s.out with drReads := s.out.drReads + 1 } } true ∧
    exec .rxDataAckAddressing s = .next t ∧ exec .rxDataAckGcAddressing s = .next t ∧
    ∀ full, decode Config.default (.event 0x80#8 .addressing full) = .ok .rxDataAckAddressing ∧
      decode Config.default (.event 0x90#8 .addressing full) = .ok .rxDataAckGcAddressing

/-- R165: a payload byte is read from `DR`, once, and pushed onto `inbound`, which is not full (default status codes `0x80`
and `0x90`, in `Writing`). That `DR` still holds its byte after the read is the model's choice (log 33; R71 leaves it open),
and so is what the arms do in another state, where no step runs them (log 15). -/
def Obligations.PayloadByteIsStored : Prop :=
  ∀ s : State, s.inbound.length ≠ s.cfg.capacity → ∃ t,
    t = served { s with inbound := s.inbound ++ [s.dr], out := { s.out with drReads := s.out.drReads + 1 } } true ∧
    exec .rxDataAckWriting s = .next t ∧ exec .rxDataAckGcWriting s = .next t ∧
    decode Config.default (.event 0x80#8 .writing false) = .ok .rxDataAckWriting ∧
    decode Config.default (.event 0x90#8 .writing false) = .ok .rxDataAckGcWriting

/-- R166: an overflowing byte is read from `DR`, once, and thrown away; `inbound` is cleared under `Discard` and kept under
`DeliverFirst64`; the engine is idle and the result is `false` (default status codes `0x80` and `0x90`, in `Writing` on a
full buffer). That `DR` still holds its byte after the read is the model's choice (log 33; R71 leaves it open), and so is what
the arms do outside their condition, where no step runs them (log 15). -/
def Obligations.OverflowEndsTransaction : Prop :=
  ∀ s : State, ∃ t,
    t = served { s with inbound := (match s.cfg.overflowPolicy with | .discard => [] | .deliverFirst64 => s.inbound),
                        state := .idle, out := { s.out with drReads := s.out.drReads + 1 } } false ∧
    exec .rxDataAckOverflow s = .next t ∧ exec .rxDataAckGcOverflow s = .next t ∧
    decode Config.default (.event 0x80#8 .writing true) = .ok .rxDataAckOverflow ∧
    decode Config.default (.event 0x90#8 .writing true) = .ok .rxDataAckGcOverflow

/-- R167, R173, R174, R175: a spurious data byte, a bus error, a general-call byte not acknowledged and every unlisted code
drop `inbound`, leave the engine idle and return `true`; `DR`, `address`, `outbound` and the device are not touched. The
default status codes are `0x80` and `0x90` in `Idle`, `0x00`, `0x98`, and every code the default table does not list.
What the arms of a data byte in `Idle` do in another state, where no step runs them, is the model's choice (log 15). -/
def Obligations.MalformedEventsDropPartialData : Prop :=
  ∀ (sc : Byte) (s : State), ∃ t,
    t = served { s with inbound := [], state := .idle } true ∧
    exec .rxDataAckIdle s = .next t ∧ exec .rxDataAckGcIdle s = .next t ∧ exec .busError s = .next t ∧
    exec .gcDataNack s = .next t ∧ exec (.other sc) s = .next t ∧
    (∀ full, decode Config.default (.event 0x80#8 .idle full) = .ok .rxDataAckIdle ∧
      decode Config.default (.event 0x90#8 .idle full) = .ok .rxDataAckGcIdle) ∧
    CodeIs 0x00#8 .busError ∧ CodeIs 0x98#8 .gcDataNack ∧
    (sc ∉ [0x60#8, 0x70#8, 0x80#8, 0x90#8, 0x88#8, 0x98#8, 0xA0#8, 0xA8#8, 0xB8#8, 0xC0#8, 0x00#8] →
      CodeIs sc (.other sc))

/-- R168: a data byte not acknowledged (default status code `0x88`) changes nothing in `Addressing` and drops `inbound`
elsewhere; the result is `true`. -/
def Obligations.DataNackKeepsAddressing : Prop :=
  ∀ s : State,
    (s.state = .addressing → exec .rxDataNack s = .next (served s true)) ∧
    (s.state ≠ .addressing → exec .rxDataNack s = .next (served { s with inbound := [], state := .idle } true)) ∧
    CodeIs 0x88#8 .rxDataNack

/-- R169: the end of a write (default status code `0xA0`), in every state: nothing is invoked on an empty `inbound`; otherwise `on_write` runs on the
whole payload; then `inbound` is cleared, the engine is idle and the result is `true`. -/
def Obligations.StopDeliversPayload : Prop :=
  ∀ s : State,
    (s.inbound = [] → exec .stopOrRestart s = .next (served { s with state := .idle } true)) ∧
    (s.inbound ≠ [] → ∃ u, exec (.onWrite s.address) s = .next u ∧
      exec .stopOrRestart s = .next (served { u with inbound := [], state := .idle } true)) ∧
    CodeIs 0xA0#8 .stopOrRestart

/-- R170: addressed for read (default status code `0xA8`), in every state whose buffer can hold the payload, as the source's
64 bytes do: `outbound` is cleared, `on_read` fills it, its first byte goes to `DR`, and the result says whether more wait;
`state` is kept. -/
def Obligations.StartForReadSendsFirstByte : Prop :=
  ∀ s : State, CodeIs 0xA8#8 .slaR ∧
    ((readPayload s s.address).length ≤ s.cfg.capacity → ∃ u w rest,
      exec (.onRead s.address) { s with outbound := [] } = .next u ∧ u.outbound = w :: rest ∧
      exec .slaR s =
        .next (served { u with outbound := rest, dr := w, out := { u.out with drWrites := u.out.drWrites ++ [w] } }
          (decide (rest ≠ []))))

/-- R171 (default status code `0xB8`): the next byte goes to `DR` and the result says whether more wait; with nothing to send the engine is idle, the
result is `false` and `DR` is not written. -/
def Obligations.NextByteIsSent : Prop :=
  ∀ s : State,
    (∀ (w : Byte) (rest : List Byte), s.outbound = w :: rest →
      exec .txDataAck s =
        .next (served { s with outbound := rest, dr := w, out := { s.out with drWrites := s.out.drWrites ++ [w] } }
          (decide (rest ≠ [])))) ∧
    (s.outbound = [] → exec .txDataAck s = .next (served { s with state := .idle } false)) ∧
    CodeIs 0xB8#8 .txDataAck

/-- R172 (default status code `0xC0`): the master ends the read: the engine is idle, the result is `true`, and nothing else changes. -/
def Obligations.ReadEndReturnsToIdle : Prop :=
  ∀ s : State, exec .txDataNack s = .next (served { s with state := .idle } true) ∧ CodeIs 0xC0#8 .txDataNack

/-- R160, R161: `serve` does what the instruction does that the decoder reads from the status code, `state` and
`full(inbound)`; it ends and returns a result for every state and every status code, where a buffer can hold a float, as the
source's 64 bytes do. Under a smaller capacity (log 34) a payload that no buffer holds is the fault `PushFull` of the push. -/
def Obligations.ServeIsTotalAndFollowsDecoder : Prop :=
  ∀ (sc : Byte) (s : State),
    exec (.serve sc) s = exec (decodeEvent s.cfg sc s.state (decide (s.inbound.length = s.cfg.capacity))) s ∧
    (4 ≤ s.cfg.capacity → ∃ t, exec (.serve sc) s = .next t ∧ t.out.value = some (.bool t.ackEn)) ∧
    (statusClass s.cfg sc = .slaR → s.cfg.capacity < (readPayload s s.address).length →
      exec (.serve sc) s = .fault .pushFull)

/-- R176: the next state of the engine and the result of `serve`, for every class and every state. -/
def Obligations.ServeFollowsTransitionTable : Prop :=
  ∀ (sc : Byte) (s t : State), s.cfg.ok = true → exec (.serve sc) s = .next t →
    (t.state, t.ackEn) =
      tableNext (statusClass s.cfg sc) s.state (decide (s.inbound.length = s.cfg.capacity))
        (outboundSeen s (statusClass s.cfg sc))

/-! ### Whole-machine rules -/

/-- R26, D23: serving one event reads `DR` at most once and writes it at most once; it reads it only for a data byte, acknowledged,
outside `Idle`, and writes it only for a transmitter event. Afterwards `DR` holds the byte written, else the event's own byte:
that every event carries a byte (log 18) and that a read leaves the byte in `DR` (log 33; R71 leaves it open) are the model's
choices. -/
def Obligations.DataRegisterDiscipline : Prop :=
  ∀ (sc d : Byte) (rest : List Request) (s t : State), s.pending = .event sc d :: rest → s.im = false →
    step s = .next t →
    t.out.drReads ≤ 1 ∧ t.out.drWrites.length ≤ 1 ∧
    (t.out.drReads = 1 ↔ statusClass s.cfg sc = .rxDataAck ∧ s.state ≠ .idle) ∧
    (t.out.drWrites ≠ [] → statusClass s.cfg sc = .slaR ∨ statusClass s.cfg sc = .txDataAck) ∧
    t.dr = (t.out.drWrites.head?).getD d

/-- R180: serving one event invokes at most one callback, `on_write` only at the end of a write with the selector and the whole
payload, `on_read` only when addressed for read. -/
def Obligations.CallbackDiscipline : Prop :=
  ∀ (sc d : Byte) (rest : List Request) (s t : State), s.pending = .event sc d :: rest → s.im = false →
    step s = .next t →
    t.out.callbacks =
      (match statusClass s.cfg sc with
       | .stopOrRestart => if s.inbound = [] then [] else [.onWrite s.address s.inbound]
       | .slaR => [.onRead s.address]
       | .slaW | .gcW | .rxDataAck | .rxDataNack | .txDataAck | .txDataNack | .busError | .gcDataNack | .other => [])

/-- R21: serving an event changes `address` only by capturing the selector byte in `Addressing`; a tick never does. -/
def Obligations.AddressChangesOnlyByCapture : Prop :=
  ∀ (s t : State) (r : Request) (rest : List Request), s.pending = r :: rest → s.im = false →
    r.isNative = true → step s = .next t → t.address ≠ s.address →
    ∃ sc d, r = .event sc d ∧ statusClass s.cfg sc = .rxDataAck ∧ s.state = .addressing ∧ t.address = d

/-- R35: who writes what. Serving an event leaves the sensor-derived fields; a tick leaves the mode, every gain and every
setpoint, and the engine. -/
def Obligations.EachFieldGroupHasOneWriter : Prop :=
  ∀ (s t : State) (r : Request) (rest : List Request), s.pending = r :: rest → s.im = false →
    step s = .next t →
    (∀ sc d, r = .event sc d →
      t.prevEncoder = s.prevEncoder ∧ t.currentEncoder = s.currentEncoder ∧ t.currentReading = s.currentReading ∧
      t.out.drives = []) ∧
    (∀ e x, r = .call (.tick e x) →
      t.mode = s.mode ∧ (∀ m y, fieldOf (t.pid.get m) y = fieldOf (s.pid.get m) y) ∧
      t.state = s.state ∧ t.address = s.address ∧ t.inbound = s.inbound ∧ t.outbound = s.outbound ∧
      t.dr = s.dr ∧ t.ackEn = s.ackEn)

/-- R29, R207: in a run of events and ticks the mode changes only by a five-byte write to the mode selector, whose last byte
encodes the new mode. -/
def Obligations.ModeChangesOnlyByModeWrite : Prop :=
  ∀ (s t : State) (r : Request) (rest : List Request), s.cfg.ok = true → s.pending = r :: rest → s.im = false →
    r.isNative = true → step s = .next t → t.mode ≠ s.mode →
    ∃ sc d w0 w1 w2 w3, r = .event sc d ∧ statusClass s.cfg sc = .stopOrRestart ∧ s.address = s.cfg.selMode ∧
      s.inbound = [w0, w1, w2, w3, s.cfg.modeEnc.get t.mode]

/-- R268: in a run of events and ticks a gain of a controller changes only by a four-byte write to its selector while that
controller is active, and then holds exactly the pattern written. -/
def Obligations.GainChangesOnlyByItsWrite : Prop :=
  ∀ (s t : State) (r : Request) (rest : List Request) (m : Mode) (x : PidField), s.cfg.ok = true →
    s.pending = r :: rest → s.im = false → r.isNative = true → step s = .next t → x ≠ .setpoint →
    fieldOf (t.pid.get m) x ≠ fieldOf (s.pid.get m) x →
    ∃ sc d, r = .event sc d ∧ statusClass s.cfg sc = .stopOrRestart ∧ s.address = selectorOfField s.cfg x ∧
      s.mode = m ∧ s.inbound = wire s.cfg.floatOrder (fieldOf (t.pid.get m) x)

/-- R177 (2): serving an event and a tick never pop from an empty buffer and never push onto a full one, whatever the state,
where a buffer can hold a float (the source's capacity is 64; log 34). -/
def Obligations.BlockNeverFaults : Prop :=
  ∀ (s : State) (r : Request) (rest : List Request), s.pending = r :: rest → r.isNative = true → 4 ≤ s.cfg.capacity →
    NoFault (step s)

/-- R7, R41, R79: no step, of whatever instruction, changes a parameter. -/
def Obligations.StepKeepsConfiguration : Prop :=
  ∀ s t : State, step s = .next t → t.cfg = s.cfg

/-- R130, R37: every step, of whatever instruction, keeps both buffers within their capacity, the interrupt mask clear and
the configuration accepted. -/
def Obligations.StepKeepsInvariant : Prop :=
  ∀ s t : State, s.Inv → step s = .next t → t.Inv

/-- R177 (1), (3), (5): a step that serves an event or runs a tick keeps the engine's invariant. -/
def Obligations.RunKeepsEngineInvariant : Prop :=
  ∀ (s t : State) (r : Request) (rest : List Request), s.pending = r :: rest → r.isNative = true →
    s.EngineInv → step s = .next t → t.EngineInv

/-- R177: the state after reset satisfies the engine's invariant, for every accepted configuration. -/
def Obligations.ResetSatisfiesInvariant : Prop :=
  ∀ c : Config, c.ok = true → (State.resetWith c).EngineInv

/-- R43: the state after reset, for every choice of the parameters. -/
def Obligations.ResetValues : Prop :=
  ∀ c : Config,
    let s := State.resetWith c
    s.state = .idle ∧ s.address = c.resetAddress ∧ s.inbound = [] ∧ s.outbound = [] ∧ s.ackEn = true ∧
    s.mode = c.resetMode ∧
    (∀ m, s.pid.get m =
      { p := (c.resetGains.get m).p, i := (c.resetGains.get m).i, d := (c.resetGains.get m).d,
        f := (c.resetGains.get m).f, setpoint := c.resetSetpoint.get m, acc := c.pidAcc0 }) ∧
    s.prevEncoder = 0x0000#16 ∧ s.currentEncoder = 0x0000#16 ∧ s.currentReading = 0x00000000#32 ∧ s.im = false ∧
    s.pending = []

/-! ### Step and decoding -/

/-- A step runs the instruction its oldest request encodes, on the state in which the request has been delivered: it has left
the queue, the outputs are cleared, an event's byte stands in `DR`, a register write's payload has been taken from
`inbound`, a register read finds `outbound` cleared. -/
def Obligations.StepRunsDecodedInstruction : Prop :=
  ∀ (s : State) (rest : List Request) (i : Instr), s.cfg.ok = true →
    (∀ sc d, s.pending = .event sc d :: rest → s.im = false →
      decode s.cfg (.event sc s.state (decide (s.inbound.length = s.cfg.capacity))) = .ok i →
      step s = exec i { s with pending := rest, out := {}, dr := d }) ∧
    (s.pending = .regWrite :: rest → decode s.cfg (.write s.address s.inbound) = .ok i →
      step s = exec i { s with pending := rest, inbound := [],
                               out := { callbacks := [.onWrite s.address s.inbound] } }) ∧
    (s.pending = .regRead :: rest → decode s.cfg (.read s.address) = .ok i →
      step s = exec i { s with pending := rest, outbound := [], out := { callbacks := [.onRead s.address] } }) ∧
    (∀ j, s.pending = .call j :: rest → s.im = false → decode s.cfg (.call j) = .ok i →
      i = j ∧ step s = exec i { s with pending := rest, out := {} })

/-- R37, R179, R100: while `IM` is 1 an event, or a call of `serve` made directly, stays pending and nothing changes (log 12);
with nothing pending nothing changes (log 13). A configuration that is not accepted is refused: R100 and U12 say so of a
selector map or mode bytes that are not distinct; that a status list which names a code twice is refused too is the model's
choice (log 23). The clearing of the outputs is the model's (log 14). -/
def Obligations.StepWaitsOrRefuses : Prop :=
  ∀ s : State,
    (s.cfg.ok = false → step s = .refused .badConfig) ∧
    (s.cfg.ok = true → s.pending = [] → step s = .next { s with out := {} }) ∧
    (∀ sc d rest, s.cfg.ok = true → s.im = true →
      (s.pending = .event sc d :: rest ∨ s.pending = .call (.serve sc) :: rest) →
      step s = .next { s with out := {} })

/-- Log 23: a request that encodes no instruction is refused by name: a call of an instruction that is decoded and not called
(R116), a register write without a payload (R214) or with more than a buffer holds (R130). -/
def Obligations.StepRefusesNonInstructions : Prop :=
  ∀ (s : State) (rest : List Request), s.cfg.ok = true →
    (∀ i : Instr, i.space ≠ .call → s.pending = .call i :: rest → step s = .refused (.undecodable .notACall)) ∧
    (s.inbound = [] → s.pending = .regWrite :: rest → step s = .refused (.undecodable .noPayload)) ∧
    (s.cfg.capacity < s.inbound.length → s.pending = .regWrite :: rest → step s = .refused (.undecodable .payloadTooLong))

/-- R95 to R104, R110 to R116: for every accepted configuration, decoding the encoding of a well-formed instruction gives it
back, with every operand at every value. -/
def Obligations.DecodeOfEncode : Prop :=
  ∀ (c : Config) (i : Instr) (e : Encoded), c.ok = true → i.wellFormed c = true → encode c i = some e →
    decode c e = .ok i

/-- The other direction: what the decoder accepts is well-formed, and encoding it gives back the selector and the whole payload,
the selector, the call; for an event, a status code of the same line of the table. -/
def Obligations.EncodeOfDecode : Prop :=
  ∀ (c : Config) (i : Instr), c.ok = true →
    (∀ a p, decode c (.write a p) = .ok i → i.wellFormed c = true ∧ encode c i = some (.write a p)) ∧
    (∀ a, decode c (.read a) = .ok i → i.wellFormed c = true ∧ encode c i = some (.read a)) ∧
    (∀ j, decode c (.call j) = .ok i → encode c i = some (.call j)) ∧
    (∀ sc st full, decode c (.event sc st full) = .ok i → i.wellFormed c = true ∧
      ∃ sc' st' full', encode c i = some (.event sc' st' full') ∧ statusRow c sc' = statusRow c sc ∧
        decode c (.event sc' st' full') = .ok i)

/-- R96, R100, R102, R110 with their default numbers, which the spec marks as its own choice or as general knowledge: a few
words, written out, decode to the instruction they stand for. -/
def Obligations.WrittenOutWordsDecode : Prop :=
  decode Config.default (.event 0x60#8 .idle false) = .ok .slaW ∧
  decode Config.default (.event 0x90#8 .writing false) = .ok .rxDataAckGcWriting ∧
  decode Config.default (.event 0xA8#8 .idle false) = .ok .slaR ∧
  decode Config.default (.event 0xF8#8 .writing false) = .ok (.other 0xF8#8) ∧
  decode Config.default (.write 0x03#8 [0x00#8, 0x00#8, 0xC0#8, 0x3F#8]) = .ok (.wrP 0x3FC00000#32) ∧
  decode Config.default (.write 0x02#8 [0x00#8, 0x00#8, 0x00#8, 0x40#8, 0x01#8]) =
    .ok (.wrMode 0x40000000#32 .velocity) ∧
  decode Config.default (.write 0x03#8 [0x00#8, 0x00#8, 0xC0#8]) =
    .ok (.wrBadLength 0x03#8 [0x00#8, 0x00#8, 0xC0#8]) ∧
  decode Config.default (.read 0x81#8) = .ok .rdAngle ∧
  decode Config.default (.read 0x7F#8) = .ok (.rdUnrecognized 0x7F#8)

/-! ### The bus controller's side -/

/-- R98, R122, for the default status codes, of a device that answers (`ack_en` = 1): the events of `WRITE_REG(sel, bytes)`
where the payload is at most one byte longer than `inbound` can hold, and of `READ_REG(sel, k)`. -/
def Obligations.TransactionsProduceTraces : Prop :=
  ∀ (s : State) (sel : Byte) (bytes : List Byte) (k : Nat), s.cfg.statusMap = Config.defaultStatusMap →
    s.ackEn = true →
    (bytes.length ≤ s.cfg.capacity + 1 → ∃ first last, writeReg s sel bytes =
      some (.event 0x60#8 first :: .event 0x80#8 sel :: bytes.map (.event 0x80#8) ++ [.event 0xA0#8 last])) ∧
    (∃ first last addr d d', readRegister s sel (k + 1) =
      some (.event 0x60#8 first :: .event 0x80#8 sel :: .event 0xA0#8 last :: .event 0xA8#8 addr ::
        List.replicate k (.event 0xB8#8 d) ++ [.event 0xC0#8 d']))

/-- R98, R27, for the default status codes: a byte received while `ack_en` = 0 produces `RX_DATA_NACK`. The byte after the
payload byte that overflows `inbound` is such a one; it ends the trace, without a stop (95_test_vectors.md P4 (b), general
knowledge: log 22). A device whose `ack_en` is 0 does not answer its address (R342). -/
def Obligations.UnacknowledgedByteEndsTrace : Prop :=
  ∀ (s : State) (sel b : Byte) (bytes rest : List Byte) (k : Nat), s.cfg.statusMap = Config.defaultStatusMap →
    (s.ackEn = true → bytes.length = s.cfg.capacity + 1 → ∃ first, writeReg s sel (bytes ++ b :: rest) =
      some (.event 0x60#8 first :: .event 0x80#8 sel :: bytes.map (.event 0x80#8) ++ [.event 0x88#8 b])) ∧
    (s.ackEn = false → writeReg s sel bytes = some [] ∧ readRegister s sel k = some [])

/-- R91, R163, R174, for the default status codes: a write to bus address 0 of a device with another own address gives the
general call's events, where `GC_ENABLE` is set, and none where it is not. -/
def Obligations.GeneralCallTraces : Prop :=
  ∀ (s : State) (sel b : Byte) (bytes rest : List Byte), s.cfg.statusMap = Config.defaultStatusMap → s.ackEn = true →
    s.cfg.ownAddr ≠ 0#7 →
    (s.cfg.gcEnable = true → bytes.length ≤ s.cfg.capacity + 1 → ∃ first last,
      busEvents s (.write 0#7 (some sel) bytes) =
        some (.event 0x70#8 first :: .event 0x90#8 sel :: bytes.map (.event 0x90#8) ++ [.event 0xA0#8 last])) ∧
    (s.cfg.gcEnable = true → bytes.length = s.cfg.capacity + 1 → ∃ first,
      busEvents s (.write 0#7 (some sel) (bytes ++ b :: rest)) =
        some (.event 0x70#8 first :: .event 0x90#8 sel :: bytes.map (.event 0x90#8) ++ [.event 0x98#8 b])) ∧
    (s.cfg.gcEnable = false → busEvents s (.write 0#7 (some sel) bytes) = some [])
end

