-- ==== Sys2Proof/Laws/State.lean ====
section
/-! SUPPORT. One lemma per field per update of the state, true by unfolding the update, so that no later proof unfolds a
record update. -/

namespace Sys2Proof.Machine

@[simp] theorem State.setBuf_inbound_cfg (s : State) (x : List Byte) : (s.setBuf .inbound x).cfg = s.cfg := rfl
@[simp] theorem State.setBuf_inbound_state (s : State) (x : List Byte) : (s.setBuf .inbound x).state = s.state := rfl
@[simp] theorem State.setBuf_inbound_address (s : State) (x : List Byte) : (s.setBuf .inbound x).address = s.address := rfl
@[simp] theorem State.setBuf_inbound_inbound (s : State) (x : List Byte) : (s.setBuf .inbound x).inbound = x := rfl
@[simp] theorem State.setBuf_inbound_outbound (s : State) (x : List Byte) : (s.setBuf .inbound x).outbound = s.outbound := rfl
@[simp] theorem State.setBuf_inbound_dr (s : State) (x : List Byte) : (s.setBuf .inbound x).dr = s.dr := rfl
@[simp] theorem State.setBuf_inbound_ackEn (s : State) (x : List Byte) : (s.setBuf .inbound x).ackEn = s.ackEn := rfl
@[simp] theorem State.setBuf_inbound_mode (s : State) (x : List Byte) : (s.setBuf .inbound x).mode = s.mode := rfl
@[simp] theorem State.setBuf_inbound_pid (s : State) (x : List Byte) : (s.setBuf .inbound x).pid = s.pid := rfl
@[simp] theorem State.setBuf_inbound_prevEncoder (s : State) (x : List Byte) : (s.setBuf .inbound x).prevEncoder = s.prevEncoder := rfl
@[simp] theorem State.setBuf_inbound_currentEncoder (s : State) (x : List Byte) : (s.setBuf .inbound x).currentEncoder = s.currentEncoder := rfl
@[simp] theorem State.setBuf_inbound_currentReading (s : State) (x : List Byte) : (s.setBuf .inbound x).currentReading = s.currentReading := rfl
@[simp] theorem State.setBuf_inbound_im (s : State) (x : List Byte) : (s.setBuf .inbound x).im = s.im := rfl
@[simp] theorem State.setBuf_inbound_pending (s : State) (x : List Byte) : (s.setBuf .inbound x).pending = s.pending := rfl
@[simp] theorem State.setBuf_inbound_out (s : State) (x : List Byte) : (s.setBuf .inbound x).out = s.out := rfl

@[simp] theorem State.setBuf_outbound_cfg (s : State) (x : List Byte) : (s.setBuf .outbound x).cfg = s.cfg := rfl
@[simp] theorem State.setBuf_outbound_state (s : State) (x : List Byte) : (s.setBuf .outbound x).state = s.state := rfl
@[simp] theorem State.setBuf_outbound_address (s : State) (x : List Byte) : (s.setBuf .outbound x).address = s.address := rfl
@[simp] theorem State.setBuf_outbound_inbound (s : State) (x : List Byte) : (s.setBuf .outbound x).inbound = s.inbound := rfl
@[simp] theorem State.setBuf_outbound_outbound (s : State) (x : List Byte) : (s.setBuf .outbound x).outbound = x := rfl
@[simp] theorem State.setBuf_outbound_dr (s : State) (x : List Byte) : (s.setBuf .outbound x).dr = s.dr := rfl
@[simp] theorem State.setBuf_outbound_ackEn (s : State) (x : List Byte) : (s.setBuf .outbound x).ackEn = s.ackEn := rfl
@[simp] theorem State.setBuf_outbound_mode (s : State) (x : List Byte) : (s.setBuf .outbound x).mode = s.mode := rfl
@[simp] theorem State.setBuf_outbound_pid (s : State) (x : List Byte) : (s.setBuf .outbound x).pid = s.pid := rfl
@[simp] theorem State.setBuf_outbound_prevEncoder (s : State) (x : List Byte) : (s.setBuf .outbound x).prevEncoder = s.prevEncoder := rfl
@[simp] theorem State.setBuf_outbound_currentEncoder (s : State) (x : List Byte) : (s.setBuf .outbound x).currentEncoder = s.currentEncoder := rfl
@[simp] theorem State.setBuf_outbound_currentReading (s : State) (x : List Byte) : (s.setBuf .outbound x).currentReading = s.currentReading := rfl
@[simp] theorem State.setBuf_outbound_im (s : State) (x : List Byte) : (s.setBuf .outbound x).im = s.im := rfl
@[simp] theorem State.setBuf_outbound_pending (s : State) (x : List Byte) : (s.setBuf .outbound x).pending = s.pending := rfl
@[simp] theorem State.setBuf_outbound_out (s : State) (x : List Byte) : (s.setBuf .outbound x).out = s.out := rfl

@[simp] theorem State.clearBuf_inbound_cfg (s : State) : (s.clearBuf .inbound).cfg = s.cfg := rfl
@[simp] theorem State.clearBuf_inbound_state (s : State) : (s.clearBuf .inbound).state = s.state := rfl
@[simp] theorem State.clearBuf_inbound_address (s : State) : (s.clearBuf .inbound).address = s.address := rfl
@[simp] theorem State.clearBuf_inbound_inbound (s : State) : (s.clearBuf .inbound).inbound = [] := rfl
@[simp] theorem State.clearBuf_inbound_outbound (s : State) : (s.clearBuf .inbound).outbound = s.outbound := rfl
@[simp] theorem State.clearBuf_inbound_dr (s : State) : (s.clearBuf .inbound).dr = s.dr := rfl
@[simp] theorem State.clearBuf_inbound_ackEn (s : State) : (s.clearBuf .inbound).ackEn = s.ackEn := rfl
@[simp] theorem State.clearBuf_inbound_mode (s : State) : (s.clearBuf .inbound).mode = s.mode := rfl
@[simp] theorem State.clearBuf_inbound_pid (s : State) : (s.clearBuf .inbound).pid = s.pid := rfl
@[simp] theorem State.clearBuf_inbound_prevEncoder (s : State) : (s.clearBuf .inbound).prevEncoder = s.prevEncoder := rfl
@[simp] theorem State.clearBuf_inbound_currentEncoder (s : State) : (s.clearBuf .inbound).currentEncoder = s.currentEncoder := rfl
@[simp] theorem State.clearBuf_inbound_currentReading (s : State) : (s.clearBuf .inbound).currentReading = s.currentReading := rfl
@[simp] theorem State.clearBuf_inbound_im (s : State) : (s.clearBuf .inbound).im = s.im := rfl
@[simp] theorem State.clearBuf_inbound_pending (s : State) : (s.clearBuf .inbound).pending = s.pending := rfl
@[simp] theorem State.clearBuf_inbound_out (s : State) : (s.clearBuf .inbound).out = s.out := rfl

@[simp] theorem State.clearBuf_outbound_cfg (s : State) : (s.clearBuf .outbound).cfg = s.cfg := rfl
@[simp] theorem State.clearBuf_outbound_state (s : State) : (s.clearBuf .outbound).state = s.state := rfl
@[simp] theorem State.clearBuf_outbound_address (s : State) : (s.clearBuf .outbound).address = s.address := rfl
@[simp] theorem State.clearBuf_outbound_inbound (s : State) : (s.clearBuf .outbound).inbound = s.inbound := rfl
@[simp] theorem State.clearBuf_outbound_outbound (s : State) : (s.clearBuf .outbound).outbound = [] := rfl
@[simp] theorem State.clearBuf_outbound_dr (s : State) : (s.clearBuf .outbound).dr = s.dr := rfl
@[simp] theorem State.clearBuf_outbound_ackEn (s : State) : (s.clearBuf .outbound).ackEn = s.ackEn := rfl
@[simp] theorem State.clearBuf_outbound_mode (s : State) : (s.clearBuf .outbound).mode = s.mode := rfl
@[simp] theorem State.clearBuf_outbound_pid (s : State) : (s.clearBuf .outbound).pid = s.pid := rfl
@[simp] theorem State.clearBuf_outbound_prevEncoder (s : State) : (s.clearBuf .outbound).prevEncoder = s.prevEncoder := rfl
@[simp] theorem State.clearBuf_outbound_currentEncoder (s : State) : (s.clearBuf .outbound).currentEncoder = s.currentEncoder := rfl
@[simp] theorem State.clearBuf_outbound_currentReading (s : State) : (s.clearBuf .outbound).currentReading = s.currentReading := rfl
@[simp] theorem State.clearBuf_outbound_im (s : State) : (s.clearBuf .outbound).im = s.im := rfl
@[simp] theorem State.clearBuf_outbound_pending (s : State) : (s.clearBuf .outbound).pending = s.pending := rfl
@[simp] theorem State.clearBuf_outbound_out (s : State) : (s.clearBuf .outbound).out = s.out := rfl

@[simp] theorem State.setEngine_cfg (s : State) (x : EngineState) : (s.setEngine x).cfg = s.cfg := rfl
@[simp] theorem State.setEngine_state (s : State) (x : EngineState) : (s.setEngine x).state = x := rfl
@[simp] theorem State.setEngine_address (s : State) (x : EngineState) : (s.setEngine x).address = s.address := rfl
@[simp] theorem State.setEngine_inbound (s : State) (x : EngineState) : (s.setEngine x).inbound = s.inbound := rfl
@[simp] theorem State.setEngine_outbound (s : State) (x : EngineState) : (s.setEngine x).outbound = s.outbound := rfl
@[simp] theorem State.setEngine_dr (s : State) (x : EngineState) : (s.setEngine x).dr = s.dr := rfl
@[simp] theorem State.setEngine_ackEn (s : State) (x : EngineState) : (s.setEngine x).ackEn = s.ackEn := rfl
@[simp] theorem State.setEngine_mode (s : State) (x : EngineState) : (s.setEngine x).mode = s.mode := rfl
@[simp] theorem State.setEngine_pid (s : State) (x : EngineState) : (s.setEngine x).pid = s.pid := rfl
@[simp] theorem State.setEngine_prevEncoder (s : State) (x : EngineState) : (s.setEngine x).prevEncoder = s.prevEncoder := rfl
@[simp] theorem State.setEngine_currentEncoder (s : State) (x : EngineState) : (s.setEngine x).currentEncoder = s.currentEncoder := rfl
@[simp] theorem State.setEngine_currentReading (s : State) (x : EngineState) : (s.setEngine x).currentReading = s.currentReading := rfl
@[simp] theorem State.setEngine_im (s : State) (x : EngineState) : (s.setEngine x).im = s.im := rfl
@[simp] theorem State.setEngine_pending (s : State) (x : EngineState) : (s.setEngine x).pending = s.pending := rfl
@[simp] theorem State.setEngine_out (s : State) (x : EngineState) : (s.setEngine x).out = s.out := rfl

@[simp] theorem State.setAddress_cfg (s : State) (a : Byte) : (s.setAddress a).cfg = s.cfg := rfl
@[simp] theorem State.setAddress_state (s : State) (a : Byte) : (s.setAddress a).state = s.state := rfl
@[simp] theorem State.setAddress_address (s : State) (a : Byte) : (s.setAddress a).address = a := rfl
@[simp] theorem State.setAddress_inbound (s : State) (a : Byte) : (s.setAddress a).inbound = s.inbound := rfl
@[simp] theorem State.setAddress_outbound (s : State) (a : Byte) : (s.setAddress a).outbound = s.outbound := rfl
@[simp] theorem State.setAddress_dr (s : State) (a : Byte) : (s.setAddress a).dr = s.dr := rfl
@[simp] theorem State.setAddress_ackEn (s : State) (a : Byte) : (s.setAddress a).ackEn = s.ackEn := rfl
@[simp] theorem State.setAddress_mode (s : State) (a : Byte) : (s.setAddress a).mode = s.mode := rfl
@[simp] theorem State.setAddress_pid (s : State) (a : Byte) : (s.setAddress a).pid = s.pid := rfl
@[simp] theorem State.setAddress_prevEncoder (s : State) (a : Byte) : (s.setAddress a).prevEncoder = s.prevEncoder := rfl
@[simp] theorem State.setAddress_currentEncoder (s : State) (a : Byte) : (s.setAddress a).currentEncoder = s.currentEncoder := rfl
@[simp] theorem State.setAddress_currentReading (s : State) (a : Byte) : (s.setAddress a).currentReading = s.currentReading := rfl
@[simp] theorem State.setAddress_im (s : State) (a : Byte) : (s.setAddress a).im = s.im := rfl
@[simp] theorem State.setAddress_pending (s : State) (a : Byte) : (s.setAddress a).pending = s.pending := rfl
@[simp] theorem State.setAddress_out (s : State) (a : Byte) : (s.setAddress a).out = s.out := rfl

@[simp] theorem State.readDR_snd_cfg (s : State) : s.readDR.2.cfg = s.cfg := rfl
@[simp] theorem State.readDR_snd_state (s : State) : s.readDR.2.state = s.state := rfl
@[simp] theorem State.readDR_snd_address (s : State) : s.readDR.2.address = s.address := rfl
@[simp] theorem State.readDR_snd_inbound (s : State) : s.readDR.2.inbound = s.inbound := rfl
@[simp] theorem State.readDR_snd_outbound (s : State) : s.readDR.2.outbound = s.outbound := rfl
@[simp] theorem State.readDR_snd_dr (s : State) : s.readDR.2.dr = s.dr := rfl
@[simp] theorem State.readDR_snd_ackEn (s : State) : s.readDR.2.ackEn = s.ackEn := rfl
@[simp] theorem State.readDR_snd_mode (s : State) : s.readDR.2.mode = s.mode := rfl
@[simp] theorem State.readDR_snd_pid (s : State) : s.readDR.2.pid = s.pid := rfl
@[simp] theorem State.readDR_snd_prevEncoder (s : State) : s.readDR.2.prevEncoder = s.prevEncoder := rfl
@[simp] theorem State.readDR_snd_currentEncoder (s : State) : s.readDR.2.currentEncoder = s.currentEncoder := rfl
@[simp] theorem State.readDR_snd_currentReading (s : State) : s.readDR.2.currentReading = s.currentReading := rfl
@[simp] theorem State.readDR_snd_im (s : State) : s.readDR.2.im = s.im := rfl
@[simp] theorem State.readDR_snd_pending (s : State) : s.readDR.2.pending = s.pending := rfl
@[simp] theorem State.readDR_snd_out (s : State) : s.readDR.2.out = { s.out with drReads := s.out.drReads + 1 } := rfl

@[simp] theorem State.writeDR_cfg (s : State) (v : Byte) : (s.writeDR v).cfg = s.cfg := rfl
@[simp] theorem State.writeDR_state (s : State) (v : Byte) : (s.writeDR v).state = s.state := rfl
@[simp] theorem State.writeDR_address (s : State) (v : Byte) : (s.writeDR v).address = s.address := rfl
@[simp] theorem State.writeDR_inbound (s : State) (v : Byte) : (s.writeDR v).inbound = s.inbound := rfl
@[simp] theorem State.writeDR_outbound (s : State) (v : Byte) : (s.writeDR v).outbound = s.outbound := rfl
@[simp] theorem State.writeDR_dr (s : State) (v : Byte) : (s.writeDR v).dr = v := rfl
@[simp] theorem State.writeDR_ackEn (s : State) (v : Byte) : (s.writeDR v).ackEn = s.ackEn := rfl
@[simp] theorem State.writeDR_mode (s : State) (v : Byte) : (s.writeDR v).mode = s.mode := rfl
@[simp] theorem State.writeDR_pid (s : State) (v : Byte) : (s.writeDR v).pid = s.pid := rfl
@[simp] theorem State.writeDR_prevEncoder (s : State) (v : Byte) : (s.writeDR v).prevEncoder = s.prevEncoder := rfl
@[simp] theorem State.writeDR_currentEncoder (s : State) (v : Byte) : (s.writeDR v).currentEncoder = s.currentEncoder := rfl
@[simp] theorem State.writeDR_currentReading (s : State) (v : Byte) : (s.writeDR v).currentReading = s.currentReading := rfl
@[simp] theorem State.writeDR_im (s : State) (v : Byte) : (s.writeDR v).im = s.im := rfl
@[simp] theorem State.writeDR_pending (s : State) (v : Byte) : (s.writeDR v).pending = s.pending := rfl
@[simp] theorem State.writeDR_out (s : State) (v : Byte) : (s.writeDR v).out = { s.out with drWrites := s.out.drWrites ++ [v] } := rfl

@[simp] theorem State.invoked_cfg (s : State) (k : Callback) : (s.invoked k).cfg = s.cfg := rfl
@[simp] theorem State.invoked_state (s : State) (k : Callback) : (s.invoked k).state = s.state := rfl
@[simp] theorem State.invoked_address (s : State) (k : Callback) : (s.invoked k).address = s.address := rfl
@[simp] theorem State.invoked_inbound (s : State) (k : Callback) : (s.invoked k).inbound = s.inbound := rfl
@[simp] theorem State.invoked_outbound (s : State) (k : Callback) : (s.invoked k).outbound = s.outbound := rfl
@[simp] theorem State.invoked_dr (s : State) (k : Callback) : (s.invoked k).dr = s.dr := rfl
@[simp] theorem State.invoked_ackEn (s : State) (k : Callback) : (s.invoked k).ackEn = s.ackEn := rfl
@[simp] theorem State.invoked_mode (s : State) (k : Callback) : (s.invoked k).mode = s.mode := rfl
@[simp] theorem State.invoked_pid (s : State) (k : Callback) : (s.invoked k).pid = s.pid := rfl
@[simp] theorem State.invoked_prevEncoder (s : State) (k : Callback) : (s.invoked k).prevEncoder = s.prevEncoder := rfl
@[simp] theorem State.invoked_currentEncoder (s : State) (k : Callback) : (s.invoked k).currentEncoder = s.currentEncoder := rfl
@[simp] theorem State.invoked_currentReading (s : State) (k : Callback) : (s.invoked k).currentReading = s.currentReading := rfl
@[simp] theorem State.invoked_im (s : State) (k : Callback) : (s.invoked k).im = s.im := rfl
@[simp] theorem State.invoked_pending (s : State) (k : Callback) : (s.invoked k).pending = s.pending := rfl
@[simp] theorem State.invoked_out (s : State) (k : Callback) : (s.invoked k).out = { s.out with callbacks := s.out.callbacks ++ [k] } := rfl

@[simp] theorem State.returning_cfg (s : State) (v : Value) : (s.returning v).cfg = s.cfg := rfl
@[simp] theorem State.returning_state (s : State) (v : Value) : (s.returning v).state = s.state := rfl
@[simp] theorem State.returning_address (s : State) (v : Value) : (s.returning v).address = s.address := rfl
@[simp] theorem State.returning_inbound (s : State) (v : Value) : (s.returning v).inbound = s.inbound := rfl
@[simp] theorem State.returning_outbound (s : State) (v : Value) : (s.returning v).outbound = s.outbound := rfl
@[simp] theorem State.returning_dr (s : State) (v : Value) : (s.returning v).dr = s.dr := rfl
@[simp] theorem State.returning_ackEn (s : State) (v : Value) : (s.returning v).ackEn = s.ackEn := rfl
@[simp] theorem State.returning_mode (s : State) (v : Value) : (s.returning v).mode = s.mode := rfl
@[simp] theorem State.returning_pid (s : State) (v : Value) : (s.returning v).pid = s.pid := rfl
@[simp] theorem State.returning_prevEncoder (s : State) (v : Value) : (s.returning v).prevEncoder = s.prevEncoder := rfl
@[simp] theorem State.returning_currentEncoder (s : State) (v : Value) : (s.returning v).currentEncoder = s.currentEncoder := rfl
@[simp] theorem State.returning_currentReading (s : State) (v : Value) : (s.returning v).currentReading = s.currentReading := rfl
@[simp] theorem State.returning_im (s : State) (v : Value) : (s.returning v).im = s.im := rfl
@[simp] theorem State.returning_pending (s : State) (v : Value) : (s.returning v).pending = s.pending := rfl
@[simp] theorem State.returning_out (s : State) (v : Value) : (s.returning v).out = { s.out with value := some v } := rfl

@[simp] theorem State.interruptEntry_cfg (s : State) (d : Byte) : (s.interruptEntry d).cfg = s.cfg := rfl
@[simp] theorem State.interruptEntry_state (s : State) (d : Byte) : (s.interruptEntry d).state = s.state := rfl
@[simp] theorem State.interruptEntry_address (s : State) (d : Byte) : (s.interruptEntry d).address = s.address := rfl
@[simp] theorem State.interruptEntry_inbound (s : State) (d : Byte) : (s.interruptEntry d).inbound = s.inbound := rfl
@[simp] theorem State.interruptEntry_outbound (s : State) (d : Byte) : (s.interruptEntry d).outbound = s.outbound := rfl
@[simp] theorem State.interruptEntry_dr (s : State) (d : Byte) : (s.interruptEntry d).dr = d := rfl
@[simp] theorem State.interruptEntry_ackEn (s : State) (d : Byte) : (s.interruptEntry d).ackEn = s.ackEn := rfl
@[simp] theorem State.interruptEntry_mode (s : State) (d : Byte) : (s.interruptEntry d).mode = s.mode := rfl
@[simp] theorem State.interruptEntry_pid (s : State) (d : Byte) : (s.interruptEntry d).pid = s.pid := rfl
@[simp] theorem State.interruptEntry_prevEncoder (s : State) (d : Byte) : (s.interruptEntry d).prevEncoder = s.prevEncoder := rfl
@[simp] theorem State.interruptEntry_currentEncoder (s : State) (d : Byte) : (s.interruptEntry d).currentEncoder = s.currentEncoder := rfl
@[simp] theorem State.interruptEntry_currentReading (s : State) (d : Byte) : (s.interruptEntry d).currentReading = s.currentReading := rfl
@[simp] theorem State.interruptEntry_im (s : State) (d : Byte) : (s.interruptEntry d).im = s.im := rfl
@[simp] theorem State.interruptEntry_pending (s : State) (d : Byte) : (s.interruptEntry d).pending = s.pending := rfl
@[simp] theorem State.interruptEntry_out (s : State) (d : Byte) : (s.interruptEntry d).out = s.out := rfl

@[simp] theorem State.serveReturn_cfg (s : State) (r : Bool) : (s.serveReturn r).cfg = s.cfg := rfl
@[simp] theorem State.serveReturn_state (s : State) (r : Bool) : (s.serveReturn r).state = s.state := rfl
@[simp] theorem State.serveReturn_address (s : State) (r : Bool) : (s.serveReturn r).address = s.address := rfl
@[simp] theorem State.serveReturn_inbound (s : State) (r : Bool) : (s.serveReturn r).inbound = s.inbound := rfl
@[simp] theorem State.serveReturn_outbound (s : State) (r : Bool) : (s.serveReturn r).outbound = s.outbound := rfl
@[simp] theorem State.serveReturn_dr (s : State) (r : Bool) : (s.serveReturn r).dr = s.dr := rfl
@[simp] theorem State.serveReturn_ackEn (s : State) (r : Bool) : (s.serveReturn r).ackEn = r := rfl
@[simp] theorem State.serveReturn_mode (s : State) (r : Bool) : (s.serveReturn r).mode = s.mode := rfl
@[simp] theorem State.serveReturn_pid (s : State) (r : Bool) : (s.serveReturn r).pid = s.pid := rfl
@[simp] theorem State.serveReturn_prevEncoder (s : State) (r : Bool) : (s.serveReturn r).prevEncoder = s.prevEncoder := rfl
@[simp] theorem State.serveReturn_currentEncoder (s : State) (r : Bool) : (s.serveReturn r).currentEncoder = s.currentEncoder := rfl
@[simp] theorem State.serveReturn_currentReading (s : State) (r : Bool) : (s.serveReturn r).currentReading = s.currentReading := rfl
@[simp] theorem State.serveReturn_im (s : State) (r : Bool) : (s.serveReturn r).im = s.im := rfl
@[simp] theorem State.serveReturn_pending (s : State) (r : Bool) : (s.serveReturn r).pending = s.pending := rfl
@[simp] theorem State.serveReturn_out (s : State) (r : Bool) : (s.serveReturn r).out = { s.out with value := some (.bool r) } := rfl

@[simp] theorem State.setPid_cfg (s : State) (m : Mode) (q : Pid) : (s.setPid m q).cfg = s.cfg := rfl
@[simp] theorem State.setPid_state (s : State) (m : Mode) (q : Pid) : (s.setPid m q).state = s.state := rfl
@[simp] theorem State.setPid_address (s : State) (m : Mode) (q : Pid) : (s.setPid m q).address = s.address := rfl
@[simp] theorem State.setPid_inbound (s : State) (m : Mode) (q : Pid) : (s.setPid m q).inbound = s.inbound := rfl
@[simp] theorem State.setPid_outbound (s : State) (m : Mode) (q : Pid) : (s.setPid m q).outbound = s.outbound := rfl
@[simp] theorem State.setPid_dr (s : State) (m : Mode) (q : Pid) : (s.setPid m q).dr = s.dr := rfl
@[simp] theorem State.setPid_ackEn (s : State) (m : Mode) (q : Pid) : (s.setPid m q).ackEn = s.ackEn := rfl
@[simp] theorem State.setPid_mode (s : State) (m : Mode) (q : Pid) : (s.setPid m q).mode = s.mode := rfl
@[simp] theorem State.setPid_pid (s : State) (m : Mode) (q : Pid) : (s.setPid m q).pid = s.pid.set m q := rfl
@[simp] theorem State.setPid_prevEncoder (s : State) (m : Mode) (q : Pid) : (s.setPid m q).prevEncoder = s.prevEncoder := rfl
@[simp] theorem State.setPid_currentEncoder (s : State) (m : Mode) (q : Pid) : (s.setPid m q).currentEncoder = s.currentEncoder := rfl
@[simp] theorem State.setPid_currentReading (s : State) (m : Mode) (q : Pid) : (s.setPid m q).currentReading = s.currentReading := rfl
@[simp] theorem State.setPid_im (s : State) (m : Mode) (q : Pid) : (s.setPid m q).im = s.im := rfl
@[simp] theorem State.setPid_pending (s : State) (m : Mode) (q : Pid) : (s.setPid m q).pending = s.pending := rfl
@[simp] theorem State.setPid_out (s : State) (m : Mode) (q : Pid) : (s.setPid m q).out = s.out := rfl

@[simp] theorem State.setField_cfg (s : State) (x : PidField) (v : F32) : (s.setField x v).cfg = s.cfg := rfl
@[simp] theorem State.setField_state (s : State) (x : PidField) (v : F32) : (s.setField x v).state = s.state := rfl
@[simp] theorem State.setField_address (s : State) (x : PidField) (v : F32) : (s.setField x v).address = s.address := rfl
@[simp] theorem State.setField_inbound (s : State) (x : PidField) (v : F32) : (s.setField x v).inbound = s.inbound := rfl
@[simp] theorem State.setField_outbound (s : State) (x : PidField) (v : F32) : (s.setField x v).outbound = s.outbound := rfl
@[simp] theorem State.setField_dr (s : State) (x : PidField) (v : F32) : (s.setField x v).dr = s.dr := rfl
@[simp] theorem State.setField_ackEn (s : State) (x : PidField) (v : F32) : (s.setField x v).ackEn = s.ackEn := rfl
@[simp] theorem State.setField_mode (s : State) (x : PidField) (v : F32) : (s.setField x v).mode = s.mode := rfl
@[simp] theorem State.setField_pid (s : State) (x : PidField) (v : F32) : (s.setField x v).pid = s.pid.set s.mode (pidSet s.cfg s.mode x v (s.pid.get s.mode)) := rfl
@[simp] theorem State.setField_prevEncoder (s : State) (x : PidField) (v : F32) : (s.setField x v).prevEncoder = s.prevEncoder := rfl
@[simp] theorem State.setField_currentEncoder (s : State) (x : PidField) (v : F32) : (s.setField x v).currentEncoder = s.currentEncoder := rfl
@[simp] theorem State.setField_currentReading (s : State) (x : PidField) (v : F32) : (s.setField x v).currentReading = s.currentReading := rfl
@[simp] theorem State.setField_im (s : State) (x : PidField) (v : F32) : (s.setField x v).im = s.im := rfl
@[simp] theorem State.setField_pending (s : State) (x : PidField) (v : F32) : (s.setField x v).pending = s.pending := rfl
@[simp] theorem State.setField_out (s : State) (x : PidField) (v : F32) : (s.setField x v).out = s.out := rfl

@[simp] theorem State.sample_cfg (s : State) (e : U16) (x : F32) : (s.sample e x).cfg = s.cfg := rfl
@[simp] theorem State.sample_state (s : State) (e : U16) (x : F32) : (s.sample e x).state = s.state := rfl
@[simp] theorem State.sample_address (s : State) (e : U16) (x : F32) : (s.sample e x).address = s.address := rfl
@[simp] theorem State.sample_inbound (s : State) (e : U16) (x : F32) : (s.sample e x).inbound = s.inbound := rfl
@[simp] theorem State.sample_outbound (s : State) (e : U16) (x : F32) : (s.sample e x).outbound = s.outbound := rfl
@[simp] theorem State.sample_dr (s : State) (e : U16) (x : F32) : (s.sample e x).dr = s.dr := rfl
@[simp] theorem State.sample_ackEn (s : State) (e : U16) (x : F32) : (s.sample e x).ackEn = s.ackEn := rfl
@[simp] theorem State.sample_mode (s : State) (e : U16) (x : F32) : (s.sample e x).mode = s.mode := rfl
@[simp] theorem State.sample_pid (s : State) (e : U16) (x : F32) : (s.sample e x).pid = s.pid := rfl
@[simp] theorem State.sample_prevEncoder (s : State) (e : U16) (x : F32) : (s.sample e x).prevEncoder = s.currentEncoder := rfl
@[simp] theorem State.sample_currentEncoder (s : State) (e : U16) (x : F32) : (s.sample e x).currentEncoder = e := rfl
@[simp] theorem State.sample_currentReading (s : State) (e : U16) (x : F32) : (s.sample e x).currentReading = x := rfl
@[simp] theorem State.sample_im (s : State) (e : U16) (x : F32) : (s.sample e x).im = s.im := rfl
@[simp] theorem State.sample_pending (s : State) (e : U16) (x : F32) : (s.sample e x).pending = s.pending := rfl
@[simp] theorem State.sample_out (s : State) (e : U16) (x : F32) : (s.sample e x).out = s.out := rfl

@[simp] theorem State.setIM_cfg (s : State) (x : Bool) : (s.setIM x).cfg = s.cfg := rfl
@[simp] theorem State.setIM_state (s : State) (x : Bool) : (s.setIM x).state = s.state := rfl
@[simp] theorem State.setIM_address (s : State) (x : Bool) : (s.setIM x).address = s.address := rfl
@[simp] theorem State.setIM_inbound (s : State) (x : Bool) : (s.setIM x).inbound = s.inbound := rfl
@[simp] theorem State.setIM_outbound (s : State) (x : Bool) : (s.setIM x).outbound = s.outbound := rfl
@[simp] theorem State.setIM_dr (s : State) (x : Bool) : (s.setIM x).dr = s.dr := rfl
@[simp] theorem State.setIM_ackEn (s : State) (x : Bool) : (s.setIM x).ackEn = s.ackEn := rfl
@[simp] theorem State.setIM_mode (s : State) (x : Bool) : (s.setIM x).mode = s.mode := rfl
@[simp] theorem State.setIM_pid (s : State) (x : Bool) : (s.setIM x).pid = s.pid := rfl
@[simp] theorem State.setIM_prevEncoder (s : State) (x : Bool) : (s.setIM x).prevEncoder = s.prevEncoder := rfl
@[simp] theorem State.setIM_currentEncoder (s : State) (x : Bool) : (s.setIM x).currentEncoder = s.currentEncoder := rfl
@[simp] theorem State.setIM_currentReading (s : State) (x : Bool) : (s.setIM x).currentReading = s.currentReading := rfl
@[simp] theorem State.setIM_im (s : State) (x : Bool) : (s.setIM x).im = x := rfl
@[simp] theorem State.setIM_pending (s : State) (x : Bool) : (s.setIM x).pending = s.pending := rfl
@[simp] theorem State.setIM_out (s : State) (x : Bool) : (s.setIM x).out = s.out := rfl

@[simp] theorem State.drive_cfg (s : State) (v : F32) : (s.drive v).cfg = s.cfg := rfl
@[simp] theorem State.drive_state (s : State) (v : F32) : (s.drive v).state = s.state := rfl
@[simp] theorem State.drive_address (s : State) (v : F32) : (s.drive v).address = s.address := rfl
@[simp] theorem State.drive_inbound (s : State) (v : F32) : (s.drive v).inbound = s.inbound := rfl
@[simp] theorem State.drive_outbound (s : State) (v : F32) : (s.drive v).outbound = s.outbound := rfl
@[simp] theorem State.drive_dr (s : State) (v : F32) : (s.drive v).dr = s.dr := rfl
@[simp] theorem State.drive_ackEn (s : State) (v : F32) : (s.drive v).ackEn = s.ackEn := rfl
@[simp] theorem State.drive_mode (s : State) (v : F32) : (s.drive v).mode = s.mode := rfl
@[simp] theorem State.drive_pid (s : State) (v : F32) : (s.drive v).pid = s.pid := rfl
@[simp] theorem State.drive_prevEncoder (s : State) (v : F32) : (s.drive v).prevEncoder = s.prevEncoder := rfl
@[simp] theorem State.drive_currentEncoder (s : State) (v : F32) : (s.drive v).currentEncoder = s.currentEncoder := rfl
@[simp] theorem State.drive_currentReading (s : State) (v : F32) : (s.drive v).currentReading = s.currentReading := rfl
@[simp] theorem State.drive_im (s : State) (v : F32) : (s.drive v).im = s.im := rfl
@[simp] theorem State.drive_pending (s : State) (v : F32) : (s.drive v).pending = s.pending := rfl
@[simp] theorem State.drive_out (s : State) (v : F32) : (s.drive v).out = { s.out with drives := s.out.drives ++ [v] } := rfl

@[simp] theorem State.output_snd_cfg (s : State) : s.output.2.cfg = s.cfg := rfl
@[simp] theorem State.output_snd_state (s : State) : s.output.2.state = s.state := rfl
@[simp] theorem State.output_snd_address (s : State) : s.output.2.address = s.address := rfl
@[simp] theorem State.output_snd_inbound (s : State) : s.output.2.inbound = s.inbound := rfl
@[simp] theorem State.output_snd_outbound (s : State) : s.output.2.outbound = s.outbound := rfl
@[simp] theorem State.output_snd_dr (s : State) : s.output.2.dr = s.dr := rfl
@[simp] theorem State.output_snd_ackEn (s : State) : s.output.2.ackEn = s.ackEn := rfl
@[simp] theorem State.output_snd_mode (s : State) : s.output.2.mode = s.mode := rfl
@[simp] theorem State.output_snd_pid (s : State) : s.output.2.pid = s.pid.set s.mode (pidOutput s.cfg.pidLaw (s.cfg.pidClamp.get s.mode) s.metric (s.pid.get s.mode)).2 := rfl
@[simp] theorem State.output_snd_prevEncoder (s : State) : s.output.2.prevEncoder = s.prevEncoder := rfl
@[simp] theorem State.output_snd_currentEncoder (s : State) : s.output.2.currentEncoder = s.currentEncoder := rfl
@[simp] theorem State.output_snd_currentReading (s : State) : s.output.2.currentReading = s.currentReading := rfl
@[simp] theorem State.output_snd_im (s : State) : s.output.2.im = s.im := rfl
@[simp] theorem State.output_snd_pending (s : State) : s.output.2.pending = s.pending := rfl
@[simp] theorem State.output_snd_out (s : State) : s.output.2.out = s.out := rfl

@[simp] theorem State.quiet_cfg (s : State) : (s.quiet).cfg = s.cfg := rfl
@[simp] theorem State.quiet_state (s : State) : (s.quiet).state = s.state := rfl
@[simp] theorem State.quiet_address (s : State) : (s.quiet).address = s.address := rfl
@[simp] theorem State.quiet_inbound (s : State) : (s.quiet).inbound = s.inbound := rfl
@[simp] theorem State.quiet_outbound (s : State) : (s.quiet).outbound = s.outbound := rfl
@[simp] theorem State.quiet_dr (s : State) : (s.quiet).dr = s.dr := rfl
@[simp] theorem State.quiet_ackEn (s : State) : (s.quiet).ackEn = s.ackEn := rfl
@[simp] theorem State.quiet_mode (s : State) : (s.quiet).mode = s.mode := rfl
@[simp] theorem State.quiet_pid (s : State) : (s.quiet).pid = s.pid := rfl
@[simp] theorem State.quiet_prevEncoder (s : State) : (s.quiet).prevEncoder = s.prevEncoder := rfl
@[simp] theorem State.quiet_currentEncoder (s : State) : (s.quiet).currentEncoder = s.currentEncoder := rfl
@[simp] theorem State.quiet_currentReading (s : State) : (s.quiet).currentReading = s.currentReading := rfl
@[simp] theorem State.quiet_im (s : State) : (s.quiet).im = s.im := rfl
@[simp] theorem State.quiet_pending (s : State) : (s.quiet).pending = s.pending := rfl
@[simp] theorem State.quiet_out (s : State) : (s.quiet).out = {} := rfl

@[simp] theorem State.readDR_fst (s : State) : s.readDR.1 = s.dr := rfl

/-! ### A mode switch: what it leaves (R260) -/

@[simp] theorem State.transition_cfg (s : State) (m : Mode) (sp : F32) : (s.transition m sp).cfg = s.cfg := by
  unfold State.transition; split <;> rfl
@[simp] theorem State.transition_state (s : State) (m : Mode) (sp : F32) : (s.transition m sp).state = s.state := by
  unfold State.transition; split <;> rfl
@[simp] theorem State.transition_address (s : State) (m : Mode) (sp : F32) : (s.transition m sp).address = s.address := by
  unfold State.transition; split <;> rfl
@[simp] theorem State.transition_inbound (s : State) (m : Mode) (sp : F32) : (s.transition m sp).inbound = s.inbound := by
  unfold State.transition; split <;> rfl
@[simp] theorem State.transition_outbound (s : State) (m : Mode) (sp : F32) : (s.transition m sp).outbound = s.outbound := by
  unfold State.transition; split <;> rfl
@[simp] theorem State.transition_dr (s : State) (m : Mode) (sp : F32) : (s.transition m sp).dr = s.dr := by
  unfold State.transition; split <;> rfl
@[simp] theorem State.transition_ackEn (s : State) (m : Mode) (sp : F32) : (s.transition m sp).ackEn = s.ackEn := by
  unfold State.transition; split <;> rfl
@[simp] theorem State.transition_prevEncoder (s : State) (m : Mode) (sp : F32) : (s.transition m sp).prevEncoder = s.prevEncoder := by
  unfold State.transition; split <;> rfl
@[simp] theorem State.transition_currentEncoder (s : State) (m : Mode) (sp : F32) : (s.transition m sp).currentEncoder = s.currentEncoder := by
  unfold State.transition; split <;> rfl
@[simp] theorem State.transition_currentReading (s : State) (m : Mode) (sp : F32) : (s.transition m sp).currentReading = s.currentReading := by
  unfold State.transition; split <;> rfl
@[simp] theorem State.transition_im (s : State) (m : Mode) (sp : F32) : (s.transition m sp).im = s.im := by
  unfold State.transition; split <;> rfl
@[simp] theorem State.transition_pending (s : State) (m : Mode) (sp : F32) : (s.transition m sp).pending = s.pending := by
  unfold State.transition; split <;> rfl
@[simp] theorem State.transition_out (s : State) (m : Mode) (sp : F32) : (s.transition m sp).out = s.out := by
  unfold State.transition; split <;> rfl

/-- After a switch the mode is the one asked for (R260). -/
@[simp] theorem State.transition_mode (s : State) (m : Mode) (sp : F32) : (s.transition m sp).mode = m := by
  unfold State.transition; split
  · next h => exact h.symm
  · rfl

/-! ### The bank of three -/

@[simp] theorem perMode_get_set_self {α : Type} (b : PerMode α) (m : Mode) (x : α) : (b.set m x).get m = x := by
  cases m <;> rfl

theorem perMode_get_set_ne {α : Type} (b : PerMode α) {m m' : Mode} (x : α) (h : m' ≠ m) :
    (b.set m x).get m' = b.get m' := by
  cases m <;> cases m' <;> first | rfl | exact absurd rfl h

@[simp] theorem perMode_set_set {α : Type} (b : PerMode α) (m : Mode) (x y : α) : (b.set m x).set m y = b.set m y := by
  cases m <;> rfl

@[simp] theorem perMode_set_get {α : Type} (b : PerMode α) (m : Mode) : b.set m (b.get m) = b := by
  cases m <;> rfl

theorem perMode_ext {α : Type} {b b' : PerMode α} (h : ∀ m, b.get m = b'.get m) : b = b' := by
  cases b; cases b'
  simpa using ⟨h .position, h .velocity, h .current⟩

/-! ### The PID instance -/

@[simp] theorem pidSet_field_self (c : Config) (m : Mode) (x : PidField) (v : F32) (q : Pid) :
    pidField (pidSet c m x v q) x = v := by
  cases x <;> rfl

theorem pidSet_field_ne (c : Config) (m : Mode) {x y : PidField} (v : F32) (q : Pid) (h : y ≠ x) :
    pidField (pidSet c m x v q) y = pidField q y := by
  cases x <;> cases y <;> first | rfl | exact absurd rfl h

@[simp] theorem pidReset_field (c : Config) (q : Pid) (y : PidField) : pidField (pidReset c q) y = pidField q y := by
  cases y <;> rfl

@[simp] theorem pidReset_acc (c : Config) (q : Pid) : (pidReset c q).acc = c.pidAcc0 := rfl

@[simp] theorem pidOutput_field (law : PidLaw) (k : PidClamp) (x : F32) (q : Pid) (y : PidField) :
    pidField (pidOutput law k x q).2 y = pidField q y := by
  cases y <;> rfl

/-- What a mode switch does to the bank (R260, R291, R292). -/
theorem State.transition_pid (s : State) (m : Mode) (sp : F32) :
    (s.transition m sp).pid =
      if m = s.mode then s.pid
      else s.pid.set m (pidSet s.cfg m .setpoint sp (pidReset s.cfg (s.pid.get m))) := by
  unfold State.transition
  split
  · rfl
  · simp [State.getPid]

end Sys2Proof.Machine
end

