-- ==== Sys2Proof/Laws/Ops.lean ====
section
/-! SUPPORT. For each shared operation, once, everything it can do; the provers cite these instead of unfolding. -/

namespace Sys2Proof.Machine

/-! ### Outcomes -/

@[simp] theorem finish_ok (s : State) : finish (.ok s) = .next s := rfl

@[simp] theorem finish_error (f : Fault) : finish (.error f) = .fault f := rfl

/-- An outcome that is a next state comes from an operation that succeeded. -/
theorem finish_eq_next {r : Except Fault State} {t : State} (h : finish r = .next t) : r = .ok t := by
  cases r with
  | error f => cases h
  | ok s => cases h; rfl

/-- An operation that can fault never refuses. -/
theorem finish_ne_refused (r : Except Fault State) (x : Refusal) : finish r ≠ .refused x := by
  cases r <;> simp [finish]

/-! ### Predicates -/

theorem bufFull_iff (cap : Nat) (b : List Byte) : bufFull cap b = true ↔ b.length = cap := by simp [bufFull]

theorem bufFull_eq_decide (cap : Nat) (b : List Byte) : bufFull cap b = decide (b.length = cap) := by
  simp [bufFull, Bool.beq_eq_decide_eq]

theorem bufEmpty_iff (b : List Byte) : bufEmpty b = true ↔ b = [] := by simp [bufEmpty]

@[simp] theorem bufEmpty_nil : bufEmpty [] = true := rfl

@[simp] theorem bufEmpty_cons (v : Byte) (b : List Byte) : bufEmpty (v :: b) = false := rfl

/-! ### Ring buffers -/

theorem pushBack_ok {cap : Nat} {b : List Byte} (v : Byte) (h : b.length ≠ cap) :
    pushBack cap b v = .ok (b ++ [v]) := by
  simp [pushBack, bufFull, h]

theorem pushBack_full {cap : Nat} {b : List Byte} (v : Byte) (h : b.length = cap) :
    pushBack cap b v = .error .pushFull := by
  simp [pushBack, bufFull, h]

theorem pushFront_ok {cap : Nat} {b : List Byte} (v : Byte) (h : b.length ≠ cap) :
    pushFront cap b v = .ok (v :: b) := by
  simp [pushFront, bufFull, h]

theorem pushFront_full {cap : Nat} {b : List Byte} (v : Byte) (h : b.length = cap) :
    pushFront cap b v = .error .pushFull := by
  simp [pushFront, bufFull, h]

@[simp] theorem popFront_nil : popFront [] = .error .popEmpty := rfl

@[simp] theorem popFront_cons (v : Byte) (rest : List Byte) : popFront (v :: rest) = .ok (v, rest) := rfl

@[simp] theorem popBack_nil : popBack [] = .error .popEmpty := rfl

@[simp] theorem popBack_concat (v : Byte) (rest : List Byte) : popBack (rest ++ [v]) = .ok (v, rest) := by
  simp [popBack]

/-- A push that succeeds found room, appends the byte and keeps the buffer within the capacity. -/
theorem pushBack_eq_ok {cap : Nat} {b b' : List Byte} {v : Byte} (h : pushBack cap b v = .ok b') :
    b.length ≠ cap ∧ b' = b ++ [v] ∧ (b.length ≤ cap → b'.length ≤ cap) := by
  by_cases hf : b.length = cap
  · rw [pushBack_full v hf] at h; cases h
  · rw [pushBack_ok v hf] at h; cases h
    exact ⟨hf, rfl, fun hb => by simp; omega⟩

theorem pushFront_eq_ok {cap : Nat} {b b' : List Byte} {v : Byte} (h : pushFront cap b v = .ok b') :
    b.length ≠ cap ∧ b' = v :: b ∧ (b.length ≤ cap → b'.length ≤ cap) := by
  by_cases hf : b.length = cap
  · rw [pushFront_full v hf] at h; cases h
  · rw [pushFront_ok v hf] at h; cases h
    exact ⟨hf, rfl, fun hb => by simp; omega⟩

theorem popFront_eq_ok {b rest : List Byte} {v : Byte} (h : popFront b = .ok (v, rest)) : b = v :: rest := by
  cases b with
  | nil => cases h
  | cons w r => cases h; rfl

theorem popBack_eq_ok {b rest : List Byte} {v : Byte} (h : popBack b = .ok (v, rest)) : b = rest ++ [v] := by
  cases b using List.reverseRecOn with
  | nil => cases h
  | append_singleton r w _ => simp at h; simp [h]

/-! ### The codec over a buffer -/

theorem wireF32_length (o : FloatOrder) (v : F32) : (wireF32 o v).length = 4 := rfl

/-- `push_float` where four places are free. -/
theorem pushFloat_ok {cap : Nat} (o : FloatOrder) {b : List Byte} (v : F32) (h : b.length + 4 ≤ cap) :
    pushFloat cap o b v = .ok (b ++ wireF32 o v) := by
  have h0 : b.length ≠ cap := by omega
  have h1 : ∀ x, (b ++ [x]).length ≠ cap := by intro x; simp; omega
  have h2 : ∀ x y, (b ++ [x] ++ [y]).length ≠ cap := by intro x y; simp; omega
  have h3 : ∀ x y z, (b ++ [x] ++ [y] ++ [z]).length ≠ cap := by intro x y z; simp; omega
  simp only [pushFloat, bind, Except.bind, pushBack_ok _ h0, pushBack_ok _ (h1 _), pushBack_ok _ (h2 _ _),
    pushBack_ok _ (h3 _ _ _)]
  simp [wireF32]

/-- What a `push_float` that succeeds has done. -/
theorem pushFloat_eq_ok {cap : Nat} {o : FloatOrder} {b b' : List Byte} {v : F32} (h : pushFloat cap o b v = .ok b') :
    b' = b ++ wireF32 o v ∧ (b.length ≤ cap → b'.length ≤ cap) := by
  simp only [pushFloat, bind, Except.bind] at h
  split at h
  · cases h
  · next h1 =>
    split at h
    · cases h
    · next h2 =>
      split at h
      · cases h
      · next h3 =>
        obtain ⟨-, rfl, l1⟩ := pushBack_eq_ok h1
        obtain ⟨-, rfl, l2⟩ := pushBack_eq_ok h2
        obtain ⟨-, rfl, l3⟩ := pushBack_eq_ok h3
        obtain ⟨-, rfl, l4⟩ := pushBack_eq_ok h
        exact ⟨by simp [wireF32], fun hb => l4 (l3 (l2 (l1 hb)))⟩

/-- `push_float` where fewer than four places are free. -/
theorem pushFloat_full {cap : Nat} (o : FloatOrder) {b : List Byte} (v : F32) (h : cap < b.length + 4)
    (h' : b.length ≤ cap) : pushFloat cap o b v = .error .pushFull := by
  cases hp : pushFloat cap o b v with
  | ok b' =>
    obtain ⟨rfl, hl⟩ := pushFloat_eq_ok hp
    have := hl h'
    simp [wireF32] at this
    omega
  | error f =>
    have key : ∀ (x : List Byte) (w : Byte) (g : Fault), pushBack cap x w = .error g → g = .pushFull := by
      intro x w g hg
      unfold pushBack at hg
      split at hg <;> cases hg
      rfl
    simp only [pushFloat, bind, Except.bind] at hp
    repeat' split at hp
    all_goals first
      | (next hg => cases hp; rw [key _ _ _ hg])
      | rw [key _ _ _ hp]

@[simp] theorem popFloat_cons (o : FloatOrder) (w0 w1 w2 w3 : Byte) (rest : List Byte) :
    popFloat o (w0 :: w1 :: w2 :: w3 :: rest) = .ok (decodeF32 o w0 w1 w2 w3, rest) := rfl

/-- `pop_float` on fewer than four bytes. -/
theorem popFloat_short (o : FloatOrder) {b : List Byte} (h : b.length < 4) : popFloat o b = .error .popEmpty := by
  match b with
  | [] => rfl
  | [_] => rfl
  | [_, _] => rfl
  | [_, _, _] => rfl
  | _ :: _ :: _ :: _ :: _ => simp at h; omega

/-- What a `pop_float` that succeeds has taken. -/
theorem popFloat_eq_ok {o : FloatOrder} {b rest : List Byte} {v : F32} (h : popFloat o b = .ok (v, rest)) :
    ∃ w0 w1 w2 w3, b = w0 :: w1 :: w2 :: w3 :: rest ∧ v = decodeF32 o w0 w1 w2 w3 := by
  match b with
  | [] => cases h
  | [_] => cases h
  | [_, _] => cases h
  | [_, _, _] => cases h
  | w0 :: w1 :: w2 :: w3 :: r => cases h; exact ⟨w0, w1, w2, w3, rfl, rfl⟩

/-! ### Lists of a known length -/

theorem length_four {b : List Byte} (h : b.length = 4) : ∃ w0 w1 w2 w3, b = [w0, w1, w2, w3] := by
  match b, h with
  | [w0, w1, w2, w3], _ => exact ⟨w0, w1, w2, w3, rfl⟩

theorem length_five {b : List Byte} (h : b.length = 5) : ∃ w0 w1 w2 w3 w4, b = [w0, w1, w2, w3, w4] := by
  match b, h with
  | [w0, w1, w2, w3, w4], _ => exact ⟨w0, w1, w2, w3, w4, rfl⟩

/-! ### Register writes -/

/-- A write of one float with the expected length (R202 to R206). -/
theorem writeFloat_four (x : PidField) {s : State} {w0 w1 w2 w3 : Byte} (h : s.inbound = [w0, w1, w2, w3]) :
    writeFloat x s = .ok ((s.clearBuf .inbound).setField x (decodeF32 s.cfg.floatOrder w0 w1 w2 w3)) := by
  simp [writeFloat, bufSize, h, bind, Except.bind, pure, Except.pure, State.clearBuf]

/-- A write of one float with another length (R212). -/
theorem writeFloat_other (x : PidField) {s : State} (h : s.inbound.length ≠ 4) :
    writeFloat x s = .ok (s.clearBuf .inbound) := by
  simp [writeFloat, bufSize, h]

/-- A mode write with the expected length (R207, R213). -/
theorem writeMode_five {s : State} {w0 w1 w2 w3 mb : Byte} (h : s.inbound = [w0, w1, w2, w3, mb]) :
    writeMode s = .ok (match modeOf s.cfg mb with
      | none => s.clearBuf .inbound
      | some m => (s.clearBuf .inbound).transition m (decodeF32 s.cfg.floatOrder w0 w1 w2 w3)) := by
  simp only [writeMode, bufSize, h, List.length_cons, List.length_nil, bind, Except.bind, popFloat_cons, popByte,
    popFront_cons, pure, Except.pure, State.clearBuf]
  cases modeOf s.cfg mb <;> simp

/-- A mode write with another length (R212). -/
theorem writeMode_other {s : State} (h : s.inbound.length ≠ 5) : writeMode s = .ok (s.clearBuf .inbound) := by
  simp [writeMode, bufSize, h]

/-! ### Register reads -/

theorem readFloat_ok (v : F32) {s : State} (h : s.outbound.length + 4 ≤ s.cfg.capacity) :
    readFloat v s = .ok (s.setBuf .outbound (s.outbound ++ wireF32 s.cfg.floatOrder v)) := by
  simp [readFloat, pushFloat_ok _ v h, Except.map]

theorem readFloat_full (v : F32) {s : State} (h : s.cfg.capacity < s.outbound.length + 4)
    (h' : s.outbound.length ≤ s.cfg.capacity) : readFloat v s = .error .pushFull := by
  simp [readFloat, pushFloat_full _ v h h', Except.map]

theorem readByte_ok (v : Byte) {s : State} (h : s.outbound.length ≠ s.cfg.capacity) :
    readByte v s = .ok (s.setBuf .outbound (s.outbound ++ [v])) := by
  simp [readByte, pushByte, pushBack_ok v h, Except.map]

theorem readByte_full (v : Byte) {s : State} (h : s.outbound.length = s.cfg.capacity) :
    readByte v s = .error .pushFull := by
  simp [readByte, pushByte, pushBack_full v h, Except.map]

/-- What a read of a float that succeeds has done. -/
theorem readFloat_eq_ok {v : F32} {s t : State} (h : readFloat v s = .ok t) :
    t = s.setBuf .outbound (s.outbound ++ wireF32 s.cfg.floatOrder v) ∧
      (s.outbound.length ≤ s.cfg.capacity → t.outbound.length ≤ s.cfg.capacity) := by
  cases hp : pushFloat s.cfg.capacity s.cfg.floatOrder s.outbound v with
  | error f => simp [readFloat, hp, Except.map] at h
  | ok b =>
    simp only [readFloat, hp, Except.map, Except.ok.injEq] at h
    obtain ⟨rfl, hl⟩ := pushFloat_eq_ok hp
    exact ⟨h.symm, h ▸ hl⟩

/-- What a read of one byte that succeeds has done. -/
theorem readByte_eq_ok {v : Byte} {s t : State} (h : readByte v s = .ok t) :
    t = s.setBuf .outbound (s.outbound ++ [v]) ∧
      (s.outbound.length ≤ s.cfg.capacity → t.outbound.length ≤ s.cfg.capacity) := by
  cases hp : pushByte s.cfg.capacity s.outbound v with
  | error f => simp [readByte, hp, Except.map] at h
  | ok b =>
    simp only [readByte, hp, Except.map, Except.ok.injEq] at h
    obtain ⟨-, rfl, hl⟩ := pushBack_eq_ok hp
    exact ⟨h.symm, h ▸ hl⟩

/-! ### Events -/

/-- What serving a transmitter event does when a byte waits (R171). -/
theorem evTransmit_cons {s : State} {w : Byte} {rest : List Byte} (h : s.outbound = w :: rest) :
    evTransmit s = .ok (((s.setBuf .outbound rest).writeDR w).serveReturn (!bufEmpty rest)) := by
  simp [evTransmit, h, bind, Except.bind, pure, Except.pure]

/-- What it does when none waits (R171). -/
theorem evTransmit_nil {s : State} (h : s.outbound = []) :
    evTransmit s = .ok ((s.setEngine .idle).serveReturn false) := by
  simp [evTransmit, h]

/-- A payload byte with room for it (R165). -/
theorem evPayload_ok {s : State} (h : s.inbound.length ≠ s.cfg.capacity) :
    evPayload s = .ok ((s.readDR.2.setBuf .inbound (s.inbound ++ [s.dr])).serveReturn true) := by
  simp [evPayload, bind, Except.bind, pure, Except.pure, pushBack_ok _ h]

/-- The end of a write with nothing received (R169). -/
theorem evStop_nil {s : State} (h : s.inbound = []) :
    evStop s = .ok (((s.clearBuf .inbound).setEngine .idle).serveReturn true) := by
  simp [evStop, h, bind, Except.bind, pure, Except.pure]

/-- The end of a write with a payload (R169). -/
theorem evStop_cons {s u : State} (h : s.inbound ≠ []) (hu : onWrite s.address s = .ok u) :
    evStop s = .ok (((u.clearBuf .inbound).setEngine .idle).serveReturn true) := by
  have : bufEmpty s.inbound = false := by
    cases hb : s.inbound with
    | nil => exact absurd hb h
    | cons v b => rfl
  simp [evStop, this, hu, bind, Except.bind, pure, Except.pure]

end Sys2Proof.Machine
end

