-- ==== Sys2Proof/Laws/Decode.lean ====
section
/-! SUPPORT. Small lemmas of the decoder and of the maps of a configuration: what an accepted configuration's selector map,
`ModeEnc` and `StatusMap` give (spec 30_encoding.md R96, R100, R110). -/

namespace Sys2Proof.Machine

/-! ### The selector map -/

theorem ok_selectors {c : Config} (h : c.ok = true) : c.selectors.Nodup := by
  simp only [Config.ok, Bool.and_eq_true, decide_eq_true_eq] at h
  exact h.1.1

theorem ok_modeBytes {c : Config} (h : c.ok = true) : c.modeBytes.Nodup := by
  simp only [Config.ok, Bool.and_eq_true, decide_eq_true_eq] at h
  exact h.1.2

theorem ok_statusMap {c : Config} (h : c.ok = true) : (c.statusMap.map Prod.fst).Nodup := by
  simp only [Config.ok, Bool.and_eq_true, decide_eq_true_eq] at h
  exact h.2

/-- A register the map finds is the one whose selector was asked for. -/
theorem selectorOf_of_regOf {c : Config} {a : Byte} {r : Reg} (h : regOf c a = some r) : selectorOf c r = a := by
  unfold regOf at h
  repeat' split at h
  all_goals first
    | (cases h; subst_vars; rfl)
    | cases h

/-- In an accepted configuration the map finds every register by its selector (R100: the map is injective). -/
theorem regOf_selectorOf {c : Config} (h : c.ok = true) (r : Reg) : regOf c (selectorOf c r) = some r := by
  have hn := ok_selectors h
  simp only [Config.selectors, List.nodup_cons, List.mem_cons, List.not_mem_nil, or_false, not_or] at hn
  cases r <;> simp [regOf, selectorOf] <;> grind

/-! ### `ModeEnc` -/

theorem modeEnc_of_modeOf {c : Config} {b : Byte} {m : Mode} (h : modeOf c b = some m) : modeEnc c m = b := by
  unfold modeOf at h
  repeat' split at h
  all_goals first
    | (cases h; rename_i h'; exact h'.symm)
    | cases h

/-- In an accepted configuration every mode byte decodes to its mode (R110: `ModeEnc` is injective). -/
theorem modeOf_modeEnc {c : Config} (h : c.ok = true) (m : Mode) : modeOf c (modeEnc c m) = some m := by
  have hn := ok_modeBytes h
  simp only [Config.modeBytes, List.nodup_cons, List.mem_cons, List.not_mem_nil, or_false, not_or] at hn
  cases m <;> simp [modeOf, modeEnc, PerMode.get] <;> grind

theorem modeOf_eq_none {c : Config} {b : Byte} : modeOf c b = none ↔ ∀ m, modeEnc c m ≠ b := by
  constructor
  · intro h m hm
    subst hm
    cases m <;> simp only [modeOf] at h <;> grind
  · intro h
    simp [modeOf, (h .position).symm, (h .velocity).symm, (h .current).symm]

/-! ### `StatusMap` -/

/-- A pair of a list whose first components are distinct is what a search by its first component finds. -/
theorem find_fst_of_mem {α : Type} {l : List (Byte × α)} (hn : (l.map Prod.fst).Nodup) {sc : Byte} {r : α}
    (h : (sc, r) ∈ l) : l.find? (fun e => e.1 == sc) = some (sc, r) := by
  induction l with
  | nil => cases h
  | cons e l ih =>
    rw [List.map_cons, List.nodup_cons] at hn
    rcases List.mem_cons.mp h with rfl | h
    · simp
    · have hne : e.1 ≠ sc := by
        rintro rfl
        exact hn.1 (List.mem_map.mpr ⟨(e.1, r), h, rfl⟩)
      rw [List.find?_cons_of_neg (by simpa using hne)]
      exact ih hn.2 h

/-- The status code the encoder writes for a line of the table is one the decoder reads as that line. -/
theorem statusRow_of_codeOf {c : Config} (h : c.ok = true) {r : StatusRow} {sc : Byte} (hc : codeOf c r = some sc) :
    statusRow c sc = r := by
  unfold codeOf at hc
  cases hf : c.statusMap.find? (fun e => e.2 == r) with
  | none => rw [hf] at hc; cases hc
  | some e =>
    rw [hf] at hc
    have he : e.2 = r := by simpa using List.find?_some hf
    have hm := List.mem_of_find?_eq_some hf
    obtain ⟨sc', r'⟩ := e
    cases hc
    cases he
    simp [statusRow, find_fst_of_mem (ok_statusMap h) hm]

/-- A line other than `other` that the decoder reads is listed, so that the encoder finds a code for it. -/
theorem codeOf_isSome_of_statusRow {c : Config} {r : StatusRow} {sc : Byte} (hr : r ≠ .other)
    (h : statusRow c sc = r) : ∃ sc', codeOf c r = some sc' := by
  unfold statusRow at h
  cases hf : c.statusMap.find? (fun e => e.1 == sc) with
  | none => rw [hf] at h; exact absurd h.symm hr
  | some e =>
    rw [hf] at h
    have hm := List.mem_of_find?_eq_some hf
    have he : e.2 = r := h
    unfold codeOf
    cases hg : c.statusMap.find? (fun e => e.2 == r) with
    | none => exact absurd (List.find?_eq_none.mp hg e hm) (by simp [he])
    | some e' => exact ⟨e'.1, rfl⟩

/-! ### The decoder -/

/-- A data byte, acknowledged, selects the overflow arm only in `Writing` on a full buffer (R166). -/
theorem decodeRxDataAck_overflow {st : EngineState} {full : Bool} (h : decodeRxDataAck st full = .rxDataAckOverflow) :
    st = .writing ∧ full = true := by
  cases st <;> cases full <;> simp_all [decodeRxDataAck]

/-- It selects the storing arm only in `Writing` on a buffer that is not full (R165). -/
theorem decodeRxDataAck_writing {st : EngineState} {full : Bool} (h : decodeRxDataAck st full = .rxDataAckWriting) :
    st = .writing ∧ full = false := by
  cases st <;> cases full <;> simp_all [decodeRxDataAck]

end Sys2Proof.Machine
end

