-- ==== Sys2Proof/Laws/PerInstr.lean ====
section
/-! SUPPORT. Statements about every instruction, one lemma per constructor. -/

/-- Every instruction of the table has an encoding under the default parameters (R96, R100, R116). -/
def Sys2Proof.Laws.EncodeDefined.Statement (i : Sys2Proof.Instr) : Prop :=
  (Sys2Proof.encode Sys2Proof.Config.default i).isSome = true

namespace Sys2Proof.Laws.EncodeDefined

open Sys2Proof

theorem slaW : Statement .slaW := rfl
theorem gcW : Statement .gcW := rfl
theorem rxDataAckAddressing : Statement .rxDataAckAddressing := rfl
theorem rxDataAckWriting : Statement .rxDataAckWriting := rfl
theorem rxDataAckOverflow : Statement .rxDataAckOverflow := rfl
theorem rxDataAckIdle : Statement .rxDataAckIdle := rfl
theorem rxDataAckGcAddressing : Statement .rxDataAckGcAddressing := rfl
theorem rxDataAckGcWriting : Statement .rxDataAckGcWriting := rfl
theorem rxDataAckGcOverflow : Statement .rxDataAckGcOverflow := rfl
theorem rxDataAckGcIdle : Statement .rxDataAckGcIdle := rfl
theorem rxDataNack : Statement .rxDataNack := rfl
theorem gcDataNack : Statement .gcDataNack := rfl
theorem stopOrRestart : Statement .stopOrRestart := rfl
theorem slaR : Statement .slaR := rfl
theorem txDataAck : Statement .txDataAck := rfl
theorem txDataNack : Statement .txDataNack := rfl
theorem busError : Statement .busError := rfl
theorem other (statusCode : Byte) : Statement (.other statusCode) := rfl
theorem wrSetpoint (v : F32) : Statement (.wrSetpoint v) := rfl
theorem wrMode (sp : F32) (m : Mode) : Statement (.wrMode sp m) := rfl
theorem wrP (v : F32) : Statement (.wrP v) := rfl
theorem wrI (v : F32) : Statement (.wrI v) := rfl
theorem wrD (v : F32) : Statement (.wrD v) := rfl
theorem wrF (v : F32) : Statement (.wrF v) := rfl
theorem wrAngle (payload : List Byte) : Statement (.wrAngle payload) := rfl
theorem wrVelocity (payload : List Byte) : Statement (.wrVelocity payload) := rfl
theorem wrCurrent (payload : List Byte) : Statement (.wrCurrent payload) := rfl
theorem wrUnrecognized (selector : Byte) (payload : List Byte) : Statement (.wrUnrecognized selector payload) := rfl
theorem wrBadLength (selector : Byte) (payload : List Byte) : Statement (.wrBadLength selector payload) := rfl
theorem wrModeInvalid (sp : F32) (modeByte : Byte) : Statement (.wrModeInvalid sp modeByte) := rfl
theorem rdSetpoint : Statement .rdSetpoint := rfl
theorem rdMode : Statement .rdMode := rfl
theorem rdP : Statement .rdP := rfl
theorem rdI : Statement .rdI := rfl
theorem rdD : Statement .rdD := rfl
theorem rdF : Statement .rdF := rfl
theorem rdAngle : Statement .rdAngle := rfl
theorem rdVelocity : Statement .rdVelocity := rfl
theorem rdCurrent : Statement .rdCurrent := rfl
theorem rdUnrecognized (selector : Byte) : Statement (.rdUnrecognized selector) := rfl
theorem serve (statusCode : Byte) : Statement (.serve statusCode) := rfl
theorem onWrite (selector : Byte) : Statement (.onWrite selector) := rfl
theorem onRead (selector : Byte) : Statement (.onRead selector) := rfl
theorem transitionState (newMode : Mode) (sp : F32) : Statement (.transitionState newMode sp) := rfl
theorem setP (v : F32) : Statement (.setP v) := rfl
theorem setI (v : F32) : Statement (.setI v) := rfl
theorem setD (v : F32) : Statement (.setD v) := rfl
theorem setF (v : F32) : Statement (.setF v) := rfl
theorem setSetpoint (v : F32) : Statement (.setSetpoint v) := rfl
theorem getP : Statement .getP := rfl
theorem getI : Statement .getI := rfl
theorem getD : Statement .getD := rfl
theorem getF : Statement .getF := rfl
theorem getSetpoint : Statement .getSetpoint := rfl
theorem getMode : Statement .getMode := rfl
theorem getAngle : Statement .getAngle := rfl
theorem getVel : Statement .getVel := rfl
theorem getCurrent : Statement .getCurrent := rfl
theorem getOutput : Statement .getOutput := rfl
theorem tick (encNew : U16) (curNew : F32) : Statement (.tick encNew curNew) := rfl
theorem rbSize (b : Buf) : Statement (.rbSize b) := rfl
theorem rbFull (b : Buf) : Statement (.rbFull b) := rfl
theorem rbEmpty (b : Buf) : Statement (.rbEmpty b) := rfl
theorem rbPushBack (b : Buf) (v : Byte) : Statement (.rbPushBack b v) := rfl
theorem rbPushFront (b : Buf) (v : Byte) : Statement (.rbPushFront b v) := rfl
theorem rbPopFront (b : Buf) : Statement (.rbPopFront b) := rfl
theorem rbPopBack (b : Buf) : Statement (.rbPopBack b) := rfl
theorem rbClear (b : Buf) : Statement (.rbClear b) := rfl
theorem encodeF32 (v : F32) : Statement (.encodeF32 v) := rfl
theorem decodeF32 (w0 w1 w2 w3 : Byte) : Statement (.decodeF32 w0 w1 w2 w3) := rfl
theorem pushFloat (b : Buf) (v : F32) : Statement (.pushFloat b v) := rfl
theorem popFloat (b : Buf) : Statement (.popFloat b) := rfl
theorem pushBytePopByte (b : Buf) (op : ByteOp) : Statement (.pushBytePopByte b op) := rfl

end Sys2Proof.Laws.EncodeDefined
end

