-- ==== Sys2Proof/Tests/Slice0.lean ====
section
/-! SUPPORT. Tests: ill-formed terms refused, words written out from the tables of the spec and their decoding, one step of
each instruction against the vectors of spec/95_test_vectors.md (cited by their numbers), and for every statement with
hypotheses a state and operands that meet them. -/

namespace Sys2Proof.Tests

open Sys2Proof Sys2Proof.Machine Sys2Proof.Claims

/-! ### Helpers -/

/-- A field of the next state, if there is one. -/
def got {α : Type} (f : State → α) : Host.Outcome State Fault Refusal → Option α
  | .next s => some (f s)
  | .fault _ => none
  | .refused _ => none

/-- The value an operation returned. -/
def val (s : State) : Option Value := s.out.value

/-- The reset state with one instance, that of Position mode. -/
def posPid (q : Pid) : State := { State.reset with pid := { State.reset.pid with position := q } }

/-- The instance of Position mode after reset. -/
def pid0 : Pid := State.reset.pid.position

/-- The reset state with an engine state, a selector and a content of both buffers. -/
def eng (st : EngineState) (a : Byte) (inb outb : List Byte) : State :=
  { State.reset with state := st, address := a, inbound := inb, outbound := outb }

/-- What the tables of events show: engine state, selector, both buffers, result, bytes written to `DR`. -/
structure Seen where
  state : EngineState
  address : Byte
  inbound : List Byte
  outbound : List Byte
  result : Bool
  drOut : List Byte
deriving DecidableEq, Repr

/-- What the tables of events show of a state. -/
def seen (s : State) : Seen := ⟨s.state, s.address, s.inbound, s.outbound, s.ackEn, s.out.drWrites⟩

/-- The reset state with requests pending. -/
def pend (s : State) (rs : List Request) : State := { s with pending := rs }

/-- The reset state with encoder samples. -/
def enc (prev cur : U16) : State := { State.reset with prevEncoder := prev, currentEncoder := cur }

/-- The default configuration with the other byte order. -/
def beState : State := State.resetWith { Config.default with floatOrder := .be }

/-- The default configuration with buffers of another capacity. -/
def smallState (cap : Nat) : State := State.resetWith { Config.default with capacity := cap }

/-- The reset state of a device with a known bus address. -/
def addressed (c : Config) : State := State.resetWith { c with ownAddr := 0x20#7 }

/-- `n` bytes. -/
def bytes (n : Nat) : List Byte := List.replicate n 0x11#8

/-! ### Ill-formed terms are refused -/

theorem test_wf_other : Instr.wellFormed Config.default (.other 0x60#8) = false := by decide
theorem test_wf_angle_empty : Instr.wellFormed Config.default (.wrAngle []) = false := by decide
theorem test_wf_velocity_too_long : Instr.wellFormed Config.default (.wrVelocity (bytes 65)) = false := by decide
theorem test_wf_current_empty : Instr.wellFormed Config.default (.wrCurrent []) = false := by decide
theorem test_wf_unrecognized_named : Instr.wellFormed Config.default (.wrUnrecognized 0x03#8 [0#8]) = false := by decide
theorem test_wf_unrecognized_empty : Instr.wellFormed Config.default (.wrUnrecognized 0x7F#8 []) = false := by decide
theorem test_wf_bad_length_right : Instr.wellFormed Config.default (.wrBadLength 0x03#8 (bytes 4)) = false := by decide
theorem test_wf_bad_length_readonly :
    Instr.wellFormed Config.default (.wrBadLength 0x81#8 (bytes 4)) = false := by decide
theorem test_wf_mode_valid : Instr.wellFormed Config.default (.wrModeInvalid 0#32 0x02#8) = false := by decide
theorem test_wf_read_named : Instr.wellFormed Config.default (.rdUnrecognized 0x83#8) = false := by decide
theorem test_wf_float_no_room : Instr.wellFormed { Config.default with capacity := 3 } (.wrP 0#32) = false := by decide
theorem test_wf_mode_no_room :
    Instr.wellFormed { Config.default with capacity := 4 } (.wrMode 0#32 .current) = false := by decide
/-- The values of 00_scope.md R7 that the source gives. -/
theorem test_config_source_values :
    Config.default.capacity = 64 ∧ Config.default.selMode = 0x02#8 ∧ Config.default.selAngle = 0x81#8 ∧
      Config.default.sentinel = 0xFF#8 ∧ Config.default.controlPeriodMs = 20 := ⟨rfl, rfl, rfl, rfl, rfl⟩
theorem test_config_ok : Config.default.ok = true := by decide
theorem test_config_selector_clash : Config.ok { Config.default with selP := 0x02#8 } = false := by decide
theorem test_config_mode_clash : Config.ok { Config.default with modeEnc := ⟨1#8, 1#8, 2#8⟩ } = false := by decide
theorem test_config_status_clash :
    Config.ok { Config.default with statusMap := [(0x60#8, .slaW), (0x60#8, .gcW)] } = false := by decide
theorem test_decode_not_a_call : decode Config.default (.call .slaW) = .error .notACall := rfl
theorem test_decode_no_payload : decode Config.default (.write 0x03#8 []) = .error .noPayload := rfl
theorem test_decode_too_long : decode Config.default (.write 0x03#8 (bytes 65)) = .error .payloadTooLong := rfl

/-! ### Words written out from R96, R100 to R104, R110 -/

theorem test_decode_write_side :
    decode Config.default (.event 0x60#8 .writing true) = .ok .slaW ∧
      decode Config.default (.event 0x70#8 .idle false) = .ok .gcW ∧
      decode Config.default (.event 0x88#8 .idle false) = .ok .rxDataNack ∧
      decode Config.default (.event 0x98#8 .idle false) = .ok .gcDataNack ∧
      decode Config.default (.event 0xA0#8 .writing false) = .ok .stopOrRestart := ⟨rfl, rfl, rfl, rfl, rfl⟩
theorem test_decode_data_byte :
    decode Config.default (.event 0x80#8 .addressing false) = .ok .rxDataAckAddressing ∧
      decode Config.default (.event 0x80#8 .writing false) = .ok .rxDataAckWriting ∧
      decode Config.default (.event 0x80#8 .writing true) = .ok .rxDataAckOverflow ∧
      decode Config.default (.event 0x80#8 .idle true) = .ok .rxDataAckIdle := ⟨rfl, rfl, rfl, rfl⟩
theorem test_decode_data_byte_gc :
    decode Config.default (.event 0x90#8 .addressing true) = .ok .rxDataAckGcAddressing ∧
      decode Config.default (.event 0x90#8 .writing false) = .ok .rxDataAckGcWriting ∧
      decode Config.default (.event 0x90#8 .writing true) = .ok .rxDataAckGcOverflow ∧
      decode Config.default (.event 0x90#8 .idle false) = .ok .rxDataAckGcIdle := ⟨rfl, rfl, rfl, rfl⟩
theorem test_decode_transmitter_and_rest :
    decode Config.default (.event 0xA8#8 .idle false) = .ok .slaR ∧
      decode Config.default (.event 0xB8#8 .idle false) = .ok .txDataAck ∧
      decode Config.default (.event 0xC0#8 .idle false) = .ok .txDataNack ∧
      decode Config.default (.event 0x00#8 .writing false) = .ok .busError ∧
      decode Config.default (.event 0x08#8 .idle false) = .ok (.other 0x08#8) := ⟨rfl, rfl, rfl, rfl, rfl⟩
theorem test_decode_float_writes :
    decode Config.default (.write 0x01#8 [0x00#8, 0x00#8, 0x20#8, 0x41#8]) = .ok (.wrSetpoint 0x41200000#32) ∧
      decode Config.default (.write 0x03#8 [0x01#8, 0x00#8, 0xC0#8, 0x7F#8]) = .ok (.wrP 0x7FC00001#32) ∧
      decode Config.default (.write 0x04#8 [0x00#8, 0x00#8, 0x00#8, 0x3F#8]) = .ok (.wrI 0x3F000000#32) ∧
      decode Config.default (.write 0x05#8 [0x00#8, 0x00#8, 0x80#8, 0xBE#8]) = .ok (.wrD 0xBE800000#32) ∧
      decode Config.default (.write 0x06#8 [0x00#8, 0x00#8, 0x80#8, 0x3F#8]) = .ok (.wrF 0x3F800000#32) :=
    ⟨rfl, rfl, rfl, rfl, rfl⟩
theorem test_decode_mode_writes :
    decode Config.default (.write 0x02#8 [0x00#8, 0x00#8, 0xB4#8, 0x41#8, 0x00#8]) =
      .ok (.wrMode 0x41B40000#32 .position) ∧
      decode Config.default (.write 0x02#8 [0x00#8, 0x00#8, 0x00#8, 0x00#8, 0x02#8]) =
      .ok (.wrMode 0x00000000#32 .current) ∧
      decode Config.default (.write 0x02#8 [0x00#8, 0x00#8, 0x00#8, 0x40#8, 0x07#8]) =
      .ok (.wrModeInvalid 0x40000000#32 0x07#8) ∧
      decode Config.default (.write 0x02#8 [0x00#8, 0x00#8, 0x00#8, 0x40#8]) =
      .ok (.wrBadLength 0x02#8 [0x00#8, 0x00#8, 0x00#8, 0x40#8]) := ⟨rfl, rfl, rfl, rfl⟩
theorem test_decode_ignored_writes :
    decode Config.default (.write 0x81#8 (bytes 64)) = .ok (.wrAngle (bytes 64)) ∧
      decode Config.default (.write 0x82#8 [0x01#8]) = .ok (.wrVelocity [0x01#8]) ∧
      decode Config.default (.write 0x83#8 [0x00#8, 0x00#8, 0x80#8, 0x3F#8]) =
      .ok (.wrCurrent [0x00#8, 0x00#8, 0x80#8, 0x3F#8]) ∧
      decode Config.default (.write 0x7F#8 [0xAA#8, 0xBB#8]) = .ok (.wrUnrecognized 0x7F#8 [0xAA#8, 0xBB#8]) :=
    ⟨rfl, rfl, rfl, rfl⟩
theorem test_decode_reads :
    decode Config.default (.read 0x01#8) = .ok .rdSetpoint ∧ decode Config.default (.read 0x02#8) =
      .ok .rdMode ∧ decode Config.default (.read 0x03#8) = .ok .rdP ∧ decode Config.default (.read 0x04#8) =
      .ok .rdI ∧ decode Config.default (.read 0x05#8) = .ok .rdD ∧ decode Config.default (.read 0x06#8) =
      .ok .rdF ∧ decode Config.default (.read 0x81#8) = .ok .rdAngle ∧ decode Config.default (.read 0x82#8) =
      .ok .rdVelocity ∧ decode Config.default (.read 0x83#8) = .ok .rdCurrent ∧
      decode Config.default (.read 0xFF#8) = .ok (.rdUnrecognized 0xFF#8) :=
    ⟨rfl, rfl, rfl, rfl, rfl, rfl, rfl, rfl, rfl, rfl⟩
theorem test_decode_big_endian :
    decode { Config.default with floatOrder := .be } (.write 0x03#8 [0x3F#8, 0xC0#8, 0x00#8, 0x00#8]) =
      .ok (.wrP 0x3FC00000#32) := rfl

/-- A word of the table, read by the decoder and run as the first instruction after reset. -/
theorem test_table_word :
    decodeTableWord 8 0x60 = some .slaW ∧ decodeTableWord 8 0x03 = some (.wrP 0#32) ∧ decodeTableWord 8 0x160 =
      none ∧ got State.state (step (State.reset.withFetchWord 8 0x60)) = some .addressing := ⟨rfl, rfl, rfl, rfl⟩

/-! ### Ring buffer (95_test_vectors.md 2.1) -/

theorem test_rb_size :
    got val (exec (.rbSize .inbound) (eng .idle 0#8 [0x00#8, 0x00#8, 0xC0#8, 0x3F#8] [])) = some (some (.nat 4)) :=
    by decide
theorem test_rb_full :
    got val (exec (.rbFull .outbound) (eng .idle 0#8 [] (bytes 64))) = some (some (.bool true)) := by decide
theorem test_rb_empty :
    got val (exec (.rbEmpty .inbound) (eng .idle 0#8 [0xFF#8] [])) = some (some (.bool false)) := by decide
theorem test_rb_push_back :
    got State.inbound (exec (.rbPushBack .inbound 0x22#8) (eng .idle 0#8 [0x11#8] [])) = some [0x11#8, 0x22#8] :=
    by decide
theorem test_rb_push_back_full :
    exec (.rbPushBack .inbound 0x41#8) (eng .idle 0#8 (bytes 64) []) = .fault .pushFull := rfl
theorem test_rb_push_front :
    got State.outbound (exec (.rbPushFront .outbound 0x33#8) (eng .idle 0#8 [] [0x11#8, 0x22#8])) =
      some [0x33#8, 0x11#8, 0x22#8] := by decide
theorem test_rb_pop_front :
    got (fun s => (s.out.value, s.inbound)) (exec (.rbPopFront .inbound) (eng .idle 0#8 [0x11#8, 0x22#8] [])) =
      some (some (.byte 0x11#8), [0x22#8]) := by decide
theorem test_rb_pop_front_empty : exec (.rbPopFront .inbound) State.reset = .fault .popEmpty := rfl
theorem test_rb_pop_back :
    got (fun s => (s.out.value, s.inbound)) (exec (.rbPopBack .inbound) (eng .idle 0#8 [0x11#8, 0x22#8] [])) =
      some (some (.byte 0x22#8), [0x11#8]) := by decide
theorem test_rb_clear :
    got State.inbound (exec (.rbClear .inbound) (eng .idle 0#8 [0x11#8, 0x22#8] [])) = some [] := by decide

/-! ### Float codec (2.2) -/

theorem test_encode_le :
    got val (exec (.encodeF32 0x3FC00000#32) State.reset) = some (some (.bytes 0x00#8 0x00#8 0xC0#8 0x3F#8)) :=
    by decide
theorem test_encode_be :
    got val (exec (.encodeF32 0x3FC00000#32) beState) = some (some (.bytes 0x3F#8 0xC0#8 0x00#8 0x00#8)) := by decide
theorem test_decode_le :
    got val (exec (.decodeF32 0x00#8 0x00#8 0xB4#8 0x41#8) State.reset) = some (some (.f32 0x41B40000#32)) :=
    by decide
theorem test_decode_be :
    got val (exec (.decodeF32 0x41#8 0xB4#8 0x00#8 0x00#8) beState) = some (some (.f32 0x41B40000#32)) := by decide
theorem test_push_float :
    got State.outbound (exec (.pushFloat .outbound 0x457FFF00#32) (eng .idle 0#8 [] [0xAA#8])) =
      some [0xAA#8, 0x00#8, 0xFF#8, 0x7F#8, 0x45#8] := by decide
theorem test_pop_float :
    got (fun s => (s.out.value, s.inbound)) (exec (.popFloat .inbound) (eng .idle 0#8 [0x00#8, 0x00#8, 0x00#8,
      0x40#8, 0x01#8] [])) = some (some (.f32 0x40000000#32), [0x01#8]) := by decide
theorem test_push_byte :
    got State.outbound (exec (.pushBytePopByte .outbound (.push 0xFF#8)) State.reset) = some [0xFF#8] := by decide
theorem test_pop_byte :
    got (fun s => (s.out.value, s.inbound)) (exec (.pushBytePopByte .inbound .pop) (eng .idle 0#8 [0x01#8] []))
      = some (some (.byte 0x01#8), []) := by decide

/-! ### Engine events (2.3) -/

theorem test_V_EV_2 :
    got seen (exec .slaW (eng .writing 0x03#8 [0x00#8, 0x00#8] [])) =
      some ⟨.addressing, 0x03#8, [], [], true, []⟩ := by decide
theorem test_V_EV_4 :
    got seen (exec .gcW (eng .idle 0xA0#8 [] [])) = some ⟨.addressing, 0xA0#8, [], [], true, []⟩ := by decide
theorem test_V_EV_5 :
    got seen (exec .rxDataAckAddressing { eng .addressing 0xA0#8 [] [] with dr := 0x02#8 }) =
      some ⟨.writing, 0x02#8, [], [], true, []⟩ := by decide
theorem test_V_EV_6 :
    got seen (exec .rxDataAckGcAddressing { eng .addressing 0xA0#8 [] [] with dr := 0x7F#8 }) =
      some ⟨.writing, 0x7F#8, [], [], true, []⟩ := by decide
theorem test_V_EV_7 :
    got seen (exec .rxDataAckWriting { eng .writing 0x03#8 [0x00#8] [] with dr := 0xC0#8 }) =
      some ⟨.writing, 0x03#8, [0x00#8, 0xC0#8], [], true, []⟩ := by decide
theorem test_V_EV_7_gc :
    got seen (exec .rxDataAckGcWriting { eng .writing 0x03#8 [0x00#8] [] with dr := 0xC0#8 }) =
      some ⟨.writing, 0x03#8, [0x00#8, 0xC0#8], [], true, []⟩ := by decide
theorem test_V_EV_9 :
    got seen (exec .rxDataAckOverflow (eng .writing 0x03#8 (bytes 64) [])) =
      some ⟨.idle, 0x03#8, [], [], false, []⟩ := by decide
theorem test_V_EV_10 :
    got seen (exec .rxDataAckGcOverflow { eng .writing 0x03#8 (bytes 64) [] with cfg := { Config.default with
      overflowPolicy := .deliverFirst64 } }) = some ⟨.idle, 0x03#8, bytes 64, [], false, []⟩ := by decide
theorem test_V_EV_11 : got (fun s => s.out.drReads) (exec .rxDataAckIdle (eng .idle 0x03#8 [] [])) = some 0 := by decide
theorem test_V_EV_12 :
    got seen (exec .rxDataAckGcIdle (eng .idle 0x03#8 (bytes 64) [])) = some ⟨.idle, 0x03#8, [], [], true, []⟩ :=
    by decide
theorem test_V_EV_13 :
    got seen (exec .rxDataNack (eng .addressing 0x03#8 [] [])) = some ⟨.addressing, 0x03#8, [], [], true, []⟩ :=
    by decide
theorem test_V_EV_14 :
    got seen (exec .rxDataNack (eng .writing 0x03#8 [0x00#8, 0x00#8] [])) =
      some ⟨.idle, 0x03#8, [], [], true, []⟩ := by decide
theorem test_V_EV_16 :
    got (fun s => (seen s, s.pid.position.p)) (exec .stopOrRestart (eng .writing 0x03#8 [0x00#8, 0x00#8,
      0xC0#8, 0x3F#8] [])) = some (⟨.idle, 0x03#8, [], [], true, []⟩, 0x3FC00000#32) := by decide
theorem test_V_EV_17 :
    got (fun s => (seen s, s.out.callbacks)) (exec .stopOrRestart (eng .writing 0x81#8 [] [])) =
      some (⟨.idle, 0x81#8, [], [], true, []⟩, []) := by decide
theorem test_V_EV_24 :
    got seen (exec .slaR { eng .idle 0x81#8 [] [0xB4#8, 0x41#8] with currentEncoder := 0x0100#16 }) =
      some ⟨.idle, 0x81#8, [], [0x00#8, 0x80#8, 0x41#8], true, [0x00#8]⟩ := by decide
theorem test_V_EV_22 :
    got seen (exec .slaR { eng .idle 0x02#8 [] [] with mode := .velocity }) =
      some ⟨.idle, 0x02#8, [], [], false, [0x01#8]⟩ := by decide
theorem test_V_EV_27 :
    got seen (exec .txDataAck (eng .idle 0x81#8 [] [0x41#8])) = some ⟨.idle, 0x81#8, [], [], false, [0x41#8]⟩ :=
    by decide
theorem test_V_EV_29 :
    got seen (exec .txDataAck (eng .writing 0x03#8 [0x11#8] [])) = some ⟨.idle, 0x03#8, [0x11#8], [], false, []⟩ :=
    by decide
theorem test_V_EV_31 :
    got seen (exec .txDataNack (eng .writing 0x03#8 [0x11#8] [])) = some ⟨.idle, 0x03#8, [0x11#8], [], true, []⟩ :=
    by decide
theorem test_V_EV_32 :
    got seen (exec .busError (eng .writing 0x03#8 [0x00#8, 0x00#8] [0x41#8])) =
      some ⟨.idle, 0x03#8, [], [0x41#8], true, []⟩ := by decide
theorem test_V_EV_32_gc :
    got seen (exec .gcDataNack (eng .addressing 0x03#8 [0x00#8] [0x41#8])) =
      some ⟨.idle, 0x03#8, [], [0x41#8], true, []⟩ := by decide
theorem test_V_EV_33 :
    got seen (exec (.other 0xF8#8) (eng .writing 0x03#8 [0x01#8] [])) = some ⟨.idle, 0x03#8, [], [], true, []⟩ :=
    by decide
theorem test_V_EV_25 :
    got seen (exec (.serve 0xA8#8) { eng .writing 0x03#8 [0x11#8] [] with pid := { State.reset.pid with
      position := { State.reset.pid.position with p := 0x3FC00000#32 } } }) =
      some ⟨.writing, 0x03#8, [0x11#8], [0x00#8, 0xC0#8, 0x3F#8], true, [0x00#8]⟩ := by decide

/-! ### Register writes (2.4) and reads (2.5) -/

theorem test_V_RW_1 :
    got (fun s => (s.pid.position.p, s.pid.velocity.p)) (exec (.wrP 0x3FC00000#32) State.reset) =
      some (0x3FC00000#32, 0#32) := by decide
theorem test_V_RW_2 :
    got (fun s => (s.pid.position.i, s.pid.velocity.i)) (exec (.wrI 0x3F000000#32) { State.reset with mode :=
      .velocity }) = some (0#32, 0x3F000000#32) := by decide
theorem test_V_RW_3 :
    got (fun s => s.pid.position.d) (exec (.wrD 0xBE800000#32) State.reset) = some 0xBE800000#32 := by decide
theorem test_V_RW_4 :
    got (fun s => s.pid.current.f) (exec (.wrF 0x3F800000#32) { State.reset with mode := .current }) =
      some 0x3F800000#32 := by decide
/-- With the default `PidOnSet` the accumulator stays. -/
theorem test_V_RW_5 (a :
    PidAcc) : got (fun s => (s.pid.position.setpoint, s.pid.position.acc)) (exec (.wrSetpoint 0x41200000#32) {
      State.reset with pid := { State.reset.pid with position := { State.reset.pid.position with acc := a } } }) =
      some (0x41200000#32, a) := rfl
theorem test_V_RW_9 :
    got (fun s => (s.mode, s.pid.velocity.setpoint, s.pid.position.setpoint)) (exec (.wrMode 0x40000000#32
      .velocity) State.reset) = some (.velocity, 0x40000000#32, 0#32) := by decide
theorem test_V_RW_10 :
    exec (.wrMode 0x40400000#32 .velocity) { State.reset with mode := .velocity } =
      .next { State.reset with mode := .velocity } := rfl
theorem test_V_RW_13 :
    got State.mode (exec (.wrModeInvalid 0x40000000#32 0x07#8) (eng .idle 0x02#8 (bytes 5) [])) = some .position :=
    by decide
theorem test_V_RW_21 :
    got (fun s => (s.pid.position.p, s.pid.position.i, s.inbound)) (exec (.onWrite 0x03#8) (eng .idle 0x03#8
      (bytes 8) [])) = some (0#32, 0#32, []) := by decide
theorem test_V_RW_8 :
    got (fun s => s.pid.position.p) (exec (.onWrite 0x03#8) { beState with inbound := [0x3F#8, 0xC0#8, 0x00#8,
      0x00#8] }) = some 0x3FC00000#32 := by decide
theorem test_V_RW_18 :
    got State.inbound (exec (.wrBadLength 0x03#8 (bytes 3)) (eng .idle 0x03#8 (bytes 3) [])) = some [] := by decide
theorem test_V_RW_22 :
    got (fun s => (s.inbound, s.currentEncoder))
      (exec (.wrAngle (bytes 4)) { enc 0#16 0x0168#16 with inbound := bytes 4 }) = some ([], 0x0168#16) := by decide
theorem test_V_RW_23 : got State.inbound (exec (.wrVelocity [1#8]) (eng .idle 0x82#8 [1#8] [])) = some [] := by decide
theorem test_V_RW_24 :
    got (fun s => (s.inbound, s.currentReading)) (exec (.wrCurrent (bytes 4)) { eng .idle 0x83#8 (bytes 4) []
      with currentReading := 0x3F000000#32 }) = some ([], 0x3F000000#32) := by decide
theorem test_V_RW_25 :
    got State.inbound (exec (.wrUnrecognized 0x7F#8 [0xAA#8, 0xBB#8]) (eng .idle 0x7F#8 [0xAA#8, 0xBB#8] [])) =
      some [] := by decide
theorem test_V_RR_1 :
    got State.outbound (exec .rdP (posPid { pid0 with p := 0x3FC00000#32 })) =
      some [0x00#8, 0x00#8, 0xC0#8, 0x3F#8] := by decide
theorem test_V_RR_2 :
    got State.outbound (exec .rdI (posPid { pid0 with i := 0x3F000000#32 })) =
      some [0x00#8, 0x00#8, 0x00#8, 0x3F#8] := by decide
theorem test_V_RR_3 :
    got State.outbound (exec .rdD (posPid { pid0 with d := 0xBE800000#32 })) =
      some [0x00#8, 0x00#8, 0x80#8, 0xBE#8] := by decide
theorem test_V_RR_4 :
    got State.outbound (exec .rdF (posPid { pid0 with f := 0x3F800000#32 })) =
      some [0x00#8, 0x00#8, 0x80#8, 0x3F#8] := by decide
theorem test_V_RR_5 :
    got State.outbound (exec .rdSetpoint (posPid { pid0 with setpoint := 0x40000000#32 })) =
      some [0x00#8, 0x00#8, 0x00#8, 0x40#8] := by decide
theorem test_V_RR_7 :
    got State.outbound (exec .rdMode { State.reset with mode := .current }) = some [0x02#8] := by decide
theorem test_V_RR_11 :
    got State.outbound (exec .rdAngle (enc 0#16 0x1234#16)) = some [0x00#8, 0xA0#8, 0x91#8, 0x43#8] := by decide
theorem test_V_RR_12 :
    got State.outbound (exec .rdAngle (enc 0#16 0xFFFF#16)) = some [0x00#8, 0xFF#8, 0x7F#8, 0x45#8] := by decide
theorem test_V_RR_14 :
    got State.outbound (exec .rdVelocity (enc 0x0128#16 0x0100#16)) = some [0x00#8, 0x00#8, 0x20#8, 0xC0#8] :=
    by decide
theorem test_V_RR_16 :
    got State.outbound (exec .rdVelocity (enc 0xFFFF#16 0x0000#16)) = some [0x00#8, 0xFF#8, 0x7F#8, 0xC5#8] :=
    by decide
theorem test_V_RR_19 :
    got State.outbound (exec .rdCurrent { State.reset with currentReading := 0x7FC00001#32 }) =
      some [0x01#8, 0x00#8, 0xC0#8, 0x7F#8] := by decide
theorem test_V_RR_20 : got State.outbound (exec (.rdUnrecognized 0x7F#8) State.reset) = some [0xFF#8] := by decide
theorem test_V_RR_10 :
    got State.outbound (exec (.onRead 0x81#8) (enc 0#16 0x0168#16)) = some [0x00#8, 0x00#8, 0xB4#8, 0x41#8] :=
    by decide

/-! ### Device operations (2.6) -/

theorem test_V_DO_1_3 :
    got val (exec .getAngle (enc 0#16 0x0000#16)) = some (some (.f32 0#32)) ∧
      got (fun s => s.out.value) (exec .getAngle (enc 0#16 0x0168#16)) = some (some (.f32 0x41B40000#32)) := by decide
theorem test_V_DO_8 : got val (exec .getVel (enc 0xFFFF#16 0x0000#16)) = some (some (.f32 0xC57FFF00#32)) := by decide
theorem test_V_DO_10 :
    got val (exec .getVel (enc 0x0010#16 0x0011#16)) = some (some (.f32 0x3D800000#32)) := by decide
theorem test_V_DO_12 :
    got val (exec .getCurrent { State.reset with currentReading := 0x3F400000#32 }) =
      some (some (.f32 0x3F400000#32)) := by decide
theorem test_V_DO_13 :
    got (fun s => (s.mode, s.pid.velocity.setpoint)) (exec (.transitionState .velocity 0x40000000#32)
      State.reset) = some (.velocity, 0x40000000#32) := by decide
theorem test_V_DO_15 (a :
    PidAcc) : got (fun s => (s.pid.position.acc, s.pid.velocity.acc)) (exec (.transitionState .velocity
      0x40000000#32) { State.reset with pid := { State.reset.pid with position := { State.reset.pid.position with
      acc := a } } }) = some (a, Config.openPidAcc0) := rfl
/-- The metric of Position mode is 16.0 after `tick(0x0100, …)`, and `drive` gets what `PidOutput` gives for it. -/
theorem test_V_DO_17 :
    got (fun s => (s.prevEncoder, s.currentEncoder, s.currentReading, s.out.drives)) (exec (.tick 0x0100#16
      0x3F000000#32) State.reset) =
      some (0x0000#16, 0x0100#16, 0x3F000000#32, [(Config.pidOutput Config.openPidLaw 0#32 0#32 0#32 0#32 0#32 Config.openPidAcc0
      (Config.openPidClamp.position) 0x41800000#32).1]) := rfl
theorem test_V_DO_21 :
    State.metric { enc 0#16 0x0168#16 with
      cfg := { Config.default with metricFallthrough := true }, currentReading := 0x3F400000#32 } = 0x3F400000#32 := by
  decide
theorem test_V_DO_24 :
    got (fun s => s.pid.position.acc) (exec .getOutput State.reset) =
      some (Config.pidOutput Config.openPidLaw 0#32 0#32 0#32 0#32 0#32 Config.openPidAcc0 (Config.openPidClamp.position) 0#32).2 := rfl
theorem test_set_P :
    got (fun s => s.pid.position.p) (exec (.setP 0xFFFFFFFF#32) State.reset) = some 0xFFFFFFFF#32 := by decide
theorem test_set_I :
    got (fun s => s.pid.position.i) (exec (.setI 0x80000000#32) State.reset) = some 0x80000000#32 := by decide
theorem test_set_D :
    got (fun s => s.pid.position.d) (exec (.setD 0x7FC00001#32) State.reset) = some 0x7FC00001#32 := by decide
theorem test_set_F :
    got (fun s => s.pid.position.f) (exec (.setF 0x00000001#32) State.reset) = some 0x00000001#32 := by decide
theorem test_set_setpoint :
    got (fun s => s.pid.position.setpoint) (exec (.setSetpoint 0x41200000#32) State.reset) = some 0x41200000#32 :=
    by decide

/-- One instance with five different patterns, for the getters. -/
def fivePatterns : State :=
  { State.reset with pid := { State.reset.pid with position := ⟨1#32, 2#32, 3#32, 4#32, 5#32, ⟨0⟩⟩ } }

theorem test_getters :
    got val (exec .getP fivePatterns) = some (some (.f32 1#32)) ∧ got val (exec .getI fivePatterns) =
      some (some (.f32 2#32)) ∧ got val (exec .getD fivePatterns) = some (some (.f32 3#32)) ∧
      got val (exec .getF fivePatterns) = some (some (.f32 4#32)) ∧ got val (exec .getSetpoint fivePatterns) =
      some (some (.f32 5#32)) ∧ got val (exec .getMode fivePatterns) = some (some (.mode .position)) := by decide

/-! ### What a step does around the instruction -/

theorem test_step_event :
    got (fun s => (seen s, s.pending, s.dr)) (step (pend (eng .addressing 0xA0#8 [] []) [.event 0x80#8 0x03#8,
      .event 0xA0#8 0#8])) = some (⟨.writing, 0x03#8, [], [], true, []⟩, [.event 0xA0#8 0#8], 0x03#8) := by decide
theorem test_step_masked :
    got State.pending (step { pend State.reset [.event 0x60#8 0#8] with im := true }) = some [.event 0x60#8 0#8] :=
    by decide
theorem test_transaction :
    writeReg (addressed Config.default) 0x03#8 [0xAA#8] =
      some [.event 0x60#8 0x40#8, .event 0x80#8 0x03#8, .event 0x80#8 0xAA#8, .event 0xA0#8 0x00#8] := by decide
theorem test_general_call :
    busEvents (addressed Config.default) (.write 0#7 (some 0x03#8) []) =
      some [.event 0x70#8 0x00#8, .event 0x90#8 0x03#8, .event 0xA0#8 0x00#8] ∧
      busEvents (addressed { Config.default with gcEnable := false }) (.write 0#7 (some 0x03#8) []) =
      some [] := by decide
/-- Program P4, variant (b), with a capacity of 2 in place of 64: the third payload byte overflows, the fourth is not
acknowledged. -/
theorem test_P4_b :
    writeReg (addressed { Config.default with capacity := 2 }) 0x03#8 [0x01#8, 0x02#8, 0x41#8, 0x42#8, 0x43#8] =
      some [.event 0x60#8 0x40#8, .event 0x80#8 0x03#8, .event 0x80#8 0x01#8, .event 0x80#8 0x02#8,
        .event 0x80#8 0x41#8, .event 0x88#8 0x42#8] := by decide
theorem test_read_register :
    readRegister (addressed Config.default) 0x81#8 2 =
      some [.event 0x60#8 0x40#8, .event 0x80#8 0x81#8, .event 0xA0#8 0x00#8, .event 0xA8#8 0x41#8,
        .event 0xB8#8 0x00#8, .event 0xC0#8 0x00#8] := by decide

/-! ### Witnesses: the hypotheses of the statements can be met -/

theorem witness_PushAtEitherEnd :
    (bufOf (eng .idle 0#8 (bytes 63) []) .inbound).length ≠ Config.default.capacity ∧
      (bufOf (eng .idle 0#8 [] (bytes 64)) .outbound).length = Config.default.capacity := by decide
theorem witness_PopAtEitherEnd :
    bufOf (eng .idle 0#8 [1#8, 2#8] []) .inbound = 1#8 :: [2#8] ∧
      bufOf (eng .idle 0#8 [1#8, 2#8] []) .inbound = [1#8] ++ [2#8] ∧ bufOf State.reset .outbound = [] := by decide
theorem witness_CodecFollowsByteOrder : State.reset.cfg.floatOrder = .le ∧ beState.cfg.floatOrder = .be := by decide
theorem witness_FloatsMoveThroughBuffers :
    (bufOf (eng .idle 0#8 (bytes 60) []) .inbound).length + 4 ≤ Config.default.capacity ∧
      (Config.default.capacity < (bufOf (eng .idle 0#8 (bytes 61) []) .inbound).length + 4 ∧
      (bufOf (eng .idle 0#8 (bytes 61) []) .inbound).length ≤ Config.default.capacity) ∧ bufOf (eng .idle 0#8 [0x00#8, 0x00#8, 0xC0#8, 0x3F#8, 9#8] []) .inbound =
      wire State.reset.cfg.floatOrder 0x3FC00000#32 ++ [9#8] ∧
      (bufOf (eng .idle 0#8 (bytes 3) []) .inbound).length < 4 ∧
      4 ≤ (bufOf (eng .idle 0#8 (bytes 4) []) .inbound).length := by decide
theorem witness_BytesMoveThroughBuffers :
    (bufOf (eng .idle 0#8 (bytes 63) []) .inbound).length ≠ Config.default.capacity ∧ bufOf (eng .idle 0#8 [7#8] []) .inbound =
      7#8 :: [] := by decide
theorem witness_TransitionSwitchesMode : Mode.position = State.reset.mode ∧ Mode.current ≠ State.reset.mode := by decide
theorem witness_SwitchBackForgetsAccumulator : Mode.velocity ≠ State.reset.mode := by decide
theorem witness_DefaultHookKeepsAccumulator :
    State.reset.cfg.pidOnSet = .keepAcc ∧ Mode.velocity ≠ State.reset.mode := by decide
/-- Also where the four bytes just fit. -/
theorem witness_FloatWritesReachActiveController :
    (State.reset.cfg.ok = true ∧ 4 ≤ State.reset.cfg.capacity) ∧
      ((smallState 4).cfg.ok = true ∧ 4 ≤ (smallState 4).cfg.capacity) := by decide
theorem witness_ModeWriteSwitches :
    Mode.position = State.reset.mode ∧ Mode.velocity ≠ State.reset.mode ∧ State.reset.cfg.ok = true ∧
      5 ≤ State.reset.cfg.capacity ∧ ∀ m, State.reset.cfg.modeEnc.get m ≠ 0xFF#8 := ⟨rfl, by decide, rfl, by decide, fun m => by cases m <;> decide⟩
theorem witness_IgnoredWritesDrainOnly :
    State.reset.cfg.ok = true ∧ 1 ≤ (bytes 64).length ∧ (bytes 64).length ≤ State.reset.cfg.capacity ∧
      0x7F#8 ∉ State.reset.cfg.selectors := by decide
theorem witness_WrongLengthChangesNothing :
    State.reset.cfg.ok = true ∧ (bytes 4).length ≠ 5 ∧ (bytes 6).length ≠ 5 ∧ 0x03#8 = State.reset.cfg.selP ∧
      (bytes 3).length ≠ 4 ∧ (bytes 64).length ≠ 4 ∧ (bytes 64).length ≤ State.reset.cfg.capacity := by decide
theorem witness_InvalidModeByteChangesNothing :
    State.reset.cfg.ok = true ∧ 5 ≤ State.reset.cfg.capacity ∧ (∀ m, State.reset.cfg.modeEnc.get m ≠ 0x03#8) :=
    ⟨rfl, by decide, fun m => by cases m <;> decide⟩
theorem witness_ReadRowsPushPayload :
    (eng .idle 0#8 [] (bytes 60)).outbound.length + 4 ≤ Config.default.capacity ∧
      (Config.default.capacity < (eng .idle 0#8 [] (bytes 61)).outbound.length + 4 ∧
      (eng .idle 0#8 [] (bytes 61)).outbound.length ≤ Config.default.capacity) ∧
      (eng .idle 0#8 [] (bytes 63)).outbound.length ≠ Config.default.capacity ∧
      (eng .idle 0#8 [] (bytes 64)).outbound.length = Config.default.capacity ∧ State.reset.cfg.ok = true ∧ 0x00#8 ∉ State.reset.cfg.selectors := by decide
theorem witness_OnReadPushesPayload :
    State.reset.cfg.ok = true ∧ (eng .idle 0#8 [] (bytes 60)).outbound.length + 4 ≤ Config.default.capacity := by decide
theorem witness_WriteThenReadReturnsValue :
    (smallState 4).outbound = [] ∧ 4 ≤ (smallState 4).cfg.capacity := by decide
theorem witness_PayloadByteIsStored :
    (eng .writing 0#8 (bytes 63) []).inbound.length ≠ Config.default.capacity := by decide
theorem witness_MalformedEventsDropPartialData :
    0xF8#8 ∉ [0x60#8, 0x70#8, 0x80#8, 0x90#8, 0x88#8, 0x98#8, 0xA0#8, 0xA8#8, 0xB8#8, 0xC0#8, 0x00#8] := by decide
theorem witness_DataNackKeepsAddressing :
    (eng .addressing 0#8 [] []).state = .addressing ∧ (eng .writing 0#8 [] []).state ≠ .addressing := by decide
theorem witness_StopDeliversPayload :
    (eng .writing 0#8 [] []).inbound = [] ∧ (eng .writing 0x03#8 (bytes 64) []).inbound ≠ [] := by decide
/-- The reset state with buffers of another capacity and a selector captured. -/
def smallRead (cap : Nat) (a : Byte) : State := { smallState cap with address := a }

theorem witness_StartForReadSendsFirstByte :
    (readPayload (smallRead 1 0x02#8) (smallRead 1 0x02#8).address).length ≤ (smallRead 1 0x02#8).cfg.capacity ∧
      (readPayload (smallRead 4 0x03#8) (smallRead 4 0x03#8).address).length ≤ (smallRead 4 0x03#8).cfg.capacity := by
  decide
theorem witness_ServeIsTotalAndFollowsDecoder :
    4 ≤ (smallState 4).cfg.capacity ∧ statusClass (smallRead 3 0x03#8).cfg 0xA8#8 = .slaR ∧
      (smallRead 3 0x03#8).cfg.capacity < (readPayload (smallRead 3 0x03#8) (smallRead 3 0x03#8).address).length := by
  decide
theorem witness_NextByteIsSent :
    (eng .idle 0#8 [] [1#8]).outbound = 1#8 :: [] ∧ (eng .idle 0#8 [] []).outbound = [] := by decide
theorem witness_ServeFollowsTransitionTable :
    State.reset.cfg.ok = true ∧ ∃ t, exec (.serve 0x60#8) State.reset = .next t := ⟨rfl, _, rfl⟩

/-- A state in which a data byte, acknowledged, is about to be captured as the selector. -/
def atSelector : State := pend (eng .addressing 0x00#8 [] []) [.event 0x80#8 0x03#8]

/-- A state in which a write to the mode selector is about to end. -/
def atModeWrite : State := pend (eng .writing 0x02#8 [0x00#8, 0x00#8, 0x00#8, 0x40#8, 0x01#8] []) [.event 0xA0#8 0#8]

/-- A state in which a write to the P gain is about to end. -/
def atGainWrite : State := pend (eng .writing 0x03#8 [0x00#8, 0x00#8, 0xC0#8, 0x3F#8] []) [.event 0xA0#8 0#8]

theorem witness_DataRegisterDiscipline :
    atSelector.pending = .event 0x80#8 0x03#8 :: [] ∧ atSelector.im = false ∧ ∃ t, step atSelector = .next t ∧
      t.out.drReads = 1 := ⟨rfl, rfl, _, rfl, rfl⟩
theorem witness_DataRegisterDiscipline_write :
    ∃ t, step (pend (eng .idle 0x7F#8 [] []) [.event 0xA8#8 0#8]) = .next t ∧ t.out.drWrites ≠ [] :=
    ⟨_, rfl, by decide⟩
theorem witness_CallbackDiscipline :
    atGainWrite.pending = .event 0xA0#8 0#8 :: [] ∧ atGainWrite.im = false ∧ ∃ t, step atGainWrite = .next t :=
    ⟨rfl, rfl, _, rfl⟩
theorem witness_AddressChangesOnlyByCapture :
    (Request.event 0x80#8 0x03#8).isNative = true ∧ ∃ t, step atSelector = .next t ∧
      t.address ≠ atSelector.address := ⟨rfl, _, rfl, by decide⟩
theorem witness_EachFieldGroupHasOneWriter :
    (∃ t, step atSelector = .next t) ∧ ∃ t, step (pend State.reset [.call (.tick 0x0100#16 0#32)]) = .next t :=
    ⟨⟨_, rfl⟩, _, rfl⟩
theorem witness_ModeChangesOnlyByModeWrite :
    atModeWrite.cfg.ok = true ∧ atModeWrite.im = false ∧ ∃ t, step atModeWrite = .next t ∧
      t.mode ≠ atModeWrite.mode := ⟨rfl, rfl, _, rfl, by decide⟩
theorem witness_GainChangesOnlyByItsWrite :
    atGainWrite.cfg.ok = true ∧ atGainWrite.im = false ∧ ∃ t, step atGainWrite = .next t ∧
      fieldOf (t.pid.get .position) .p ≠ fieldOf (atGainWrite.pid.get .position) .p := ⟨rfl, rfl, _, rfl, by decide⟩
theorem witness_BlockNeverFaults :
    atSelector.pending = .event 0x80#8 0x03#8 :: [] ∧ (Request.event 0x80#8 0x03#8).isNative = true ∧
      (Request.call (.tick 0#16 0#32)).isNative = true ∧ 4 ≤ atSelector.cfg.capacity := ⟨rfl, rfl, rfl, by decide⟩
theorem witness_OnlyOutputAdvancesAccumulator :
    atModeWrite.cfg.pidOnSet = .keepAcc ∧ (∃ t, step atModeWrite = .next t ∧ Mode.velocity ≠ atModeWrite.mode ∧
      t.mode = .velocity) ∧ ∃ t, step (pend State.reset [.call .getOutput]) = .next t :=
    ⟨rfl, ⟨_, rfl, by decide, rfl⟩, _, rfl⟩
theorem witness_StepKeepsConfiguration : ∃ t, step atModeWrite = .next t := ⟨_, rfl⟩
theorem witness_StepKeepsInvariant :
    atModeWrite.Inv ∧ ∃ t, step atModeWrite = .next t := ⟨⟨rfl, by decide, by decide, rfl⟩, _, rfl⟩
theorem witness_RunKeepsEngineInvariant :
    atSelector.EngineInv ∧ atSelector.pending = .event 0x80#8 0x03#8 :: [] ∧ ∃ t, step atSelector = .next t :=
    ⟨⟨⟨rfl, by decide, by decide, rfl⟩, fun _ => rfl, by decide⟩, rfl, _, rfl⟩
theorem witness_ResetSatisfiesInvariant : Config.default.ok = true := by decide
theorem witness_StepRunsDecodedInstruction_event :
    atSelector.cfg.ok = true ∧ atSelector.pending = .event 0x80#8 0x03#8 :: [] ∧ atSelector.im = false ∧
      decode atSelector.cfg (.event 0x80#8 atSelector.state (decide (atSelector.inbound.length = atSelector.cfg.capacity))) =
      .ok .rxDataAckAddressing := ⟨rfl, rfl, rfl, rfl⟩
theorem witness_StepRunsDecodedInstruction_write :
    (pend atGainWrite [.regWrite]).pending = .regWrite :: [] ∧
      decode atGainWrite.cfg (.write atGainWrite.address atGainWrite.inbound) = .ok (.wrP 0x3FC00000#32) := ⟨rfl, rfl⟩
theorem witness_StepRunsDecodedInstruction_read :
    (pend (eng .idle 0x81#8 [] []) [.regRead]).pending = .regRead :: [] ∧
      decode Config.default (.read 0x81#8) = .ok .rdAngle := ⟨rfl, rfl⟩
theorem witness_StepRunsDecodedInstruction_call :
    (pend State.reset [.call .getMode]).pending = .call .getMode :: [] ∧
      decode Config.default (.call .getMode) = .ok .getMode := ⟨rfl, rfl⟩
theorem witness_StepWaitsOrRefuses :
    Config.ok { Config.default with selP := 0x02#8 } = false ∧ State.reset.pending = [] ∧ State.reset.cfg.ok =
      true ∧ (pend { State.reset with im := true } [.event 0x60#8 0#8]).pending = .event 0x60#8 0#8 :: [] ∧
      (pend { State.reset with im := true } [.event 0x60#8 0#8]).im = true ∧
      (pend { State.reset with im := true } [.call (.serve 0x60#8)]).pending = .call (.serve 0x60#8) :: [] :=
    ⟨rfl, rfl, rfl, rfl, rfl, rfl⟩
theorem witness_StepRefusesNonInstructions :
    State.reset.cfg.ok = true ∧
      (Instr.slaW.space ≠ .call ∧ (pend State.reset [.call .slaW]).pending = .call .slaW :: []) ∧
      ((pend State.reset [.regWrite]).inbound = [] ∧ (pend State.reset [.regWrite]).pending = .regWrite :: [])
      ∧ State.reset.cfg.capacity < (pend (eng .idle 0#8 (bytes 65) []) [.regWrite]).inbound.length := by decide
theorem witness_DecodeOfEncode :
    Config.default.ok = true ∧ Instr.wellFormed Config.default (.wrModeInvalid 0x40000000#32 0x03#8) = true ∧
      encode Config.default (.wrModeInvalid 0x40000000#32 0x03#8) =
      some (.write 0x02#8 [0x00#8, 0x00#8, 0x00#8, 0x40#8, 0x03#8]) := by decide
theorem witness_EncodeOfDecode :
    Config.default.ok = true ∧ decode Config.default (.write 0x01#8 (bytes 64)) =
      .ok (.wrBadLength 0x01#8 (bytes 64)) ∧ decode Config.default (.read 0x05#8) = .ok .rdD ∧
      decode Config.default (.call (.rbSize .inbound)) = .ok (.rbSize .inbound) ∧
      decode Config.default (.event 0x90#8 .writing true) = .ok .rxDataAckGcOverflow := ⟨rfl, rfl, rfl, rfl, rfl⟩
theorem witness_TransactionsProduceTraces :
    State.reset.cfg.statusMap = Config.defaultStatusMap ∧ State.reset.ackEn = true ∧
      (bytes 65).length ≤ State.reset.cfg.capacity + 1 := ⟨rfl, rfl, by decide⟩
theorem witness_UnacknowledgedByteEndsTrace :
    State.reset.cfg.statusMap = Config.defaultStatusMap ∧ State.reset.ackEn = true ∧
      (bytes 65).length = State.reset.cfg.capacity + 1 ∧ State.ackEn { State.reset with ackEn := false } = false :=
    ⟨rfl, rfl, by decide, rfl⟩
theorem witness_GeneralCallTraces :
    State.cfg (addressed Config.default) = { Config.default with ownAddr := 0x20#7 } ∧
      (addressed Config.default).cfg.statusMap = Config.defaultStatusMap ∧ (addressed Config.default).ackEn = true ∧
      (addressed Config.default).cfg.ownAddr ≠ 0#7 ∧ (addressed Config.default).cfg.gcEnable = true ∧
      (bytes 65).length = (addressed Config.default).cfg.capacity + 1 ∧
      (addressed { Config.default with gcEnable := false }).cfg.gcEnable = false :=
    ⟨rfl, rfl, rfl, by decide, rfl, by decide, rfl⟩


end Sys2Proof.Tests
end

/-! ## What the shared operations leave unchanged and what a step can do

Inversion lemmas for the operations that can fault, and one for `step`; from them, that no step writes the configuration
(R7, R41, R79). -/

namespace Sys2Proof.Machine

/-! ### The buffers, whichever is named -/

@[simp] theorem State.setBuf_cfg (s : State) (b : Buf) (x : List Byte) : (s.setBuf b x).cfg = s.cfg := by
  cases b <;> rfl

@[simp] theorem State.clearBuf_cfg (s : State) (b : Buf) : (s.clearBuf b).cfg = s.cfg := s.setBuf_cfg b []

/-! ### Register writes: everything they can do -/

/-- A float write drains the payload, and runs the setter only where the payload has four bytes (R202 to R206, R212). -/
theorem writeFloat_eq_ok {x : PidField} {s t : State} (h : writeFloat x s = .ok t) :
    (s.inbound.length ≠ 4 ∧ t = s.clearBuf .inbound) ∨
      ∃ w0 w1 w2 w3, s.inbound = [w0, w1, w2, w3] ∧
        t = (s.clearBuf .inbound).setField x (decodeF32 s.cfg.floatOrder w0 w1 w2 w3) := by
  by_cases hl : s.inbound.length = 4
  · obtain ⟨w0, w1, w2, w3, hb⟩ := length_four hl
    rw [writeFloat_four x hb] at h
    exact .inr ⟨w0, w1, w2, w3, hb, (Except.ok.inj h).symm⟩
  · rw [writeFloat_other x hl] at h
    exact .inl ⟨hl, (Except.ok.inj h).symm⟩

/-- A mode write drains the payload, and switches only where the payload has five bytes and ends in the byte of a mode
(R207, R212, R213). -/
theorem writeMode_eq_ok {s t : State} (h : writeMode s = .ok t) :
    (s.inbound.length ≠ 5 ∧ t = s.clearBuf .inbound) ∨
      ∃ w0 w1 w2 w3 mb, s.inbound = [w0, w1, w2, w3, mb] ∧
        ((modeOf s.cfg mb = none ∧ t = s.clearBuf .inbound) ∨
          ∃ m, modeOf s.cfg mb = some m ∧
            t = (s.clearBuf .inbound).transition m (decodeF32 s.cfg.floatOrder w0 w1 w2 w3)) := by
  by_cases hl : s.inbound.length = 5
  · obtain ⟨w0, w1, w2, w3, mb, hb⟩ := length_five hl
    rw [writeMode_five hb] at h
    refine .inr ⟨w0, w1, w2, w3, mb, hb, ?_⟩
    cases hm : modeOf s.cfg mb with
    | none => rw [hm] at h; exact .inl ⟨rfl, (Except.ok.inj h).symm⟩
    | some m => rw [hm] at h; exact .inr ⟨m, rfl, (Except.ok.inj h).symm⟩
  · rw [writeMode_other hl] at h
    exact .inl ⟨hl, (Except.ok.inj h).symm⟩

theorem writeFloat_cfg {x : PidField} {s t : State} (h : writeFloat x s = .ok t) : t.cfg = s.cfg := by
  obtain ⟨-, rfl⟩ | ⟨_, _, _, _, -, rfl⟩ := writeFloat_eq_ok h <;> rfl

theorem writeMode_cfg {s t : State} (h : writeMode s = .ok t) : t.cfg = s.cfg := by
  obtain ⟨-, rfl⟩ | ⟨_, _, _, _, _, -, ⟨-, rfl⟩ | ⟨m, -, rfl⟩⟩ := writeMode_eq_ok h
  · rfl
  · rfl
  · exact State.transition_cfg _ _ _

/-- What `on_write` can do (R201): the register its selector names decides. -/
theorem onWrite_eq_ok {a : Byte} {s t : State} (h : onWrite a s = .ok t) :
    t = (s.invoked (.onWrite a s.inbound)).clearBuf .inbound ∨
      (∃ x, writeFloat x (s.invoked (.onWrite a s.inbound)) = .ok t) ∨
      writeMode (s.invoked (.onWrite a s.inbound)) = .ok t := by
  simp only [onWrite, State.invoked_cfg] at h
  cases hr : regOf s.cfg a with
  | none => rw [hr] at h; exact .inl (Except.ok.inj h).symm
  | some r =>
    rw [hr] at h
    cases r with
    | angle | velocity | current => exact .inl (Except.ok.inj h).symm
    | setpoint | p | i | d | f => exact .inr (.inl ⟨_, h⟩)
    | mode => exact .inr (.inr h)

theorem onWrite_cfg {a : Byte} {s t : State} (h : onWrite a s = .ok t) : t.cfg = s.cfg := by
  obtain rfl | ⟨x, hx⟩ | hm := onWrite_eq_ok h
  · rfl
  · simpa using writeFloat_cfg hx
  · simpa using writeMode_cfg hm

/-! ### Register reads: everything they can do -/

/-- A register read appends some payload to outbound (R231 to R240) and does nothing else. -/
theorem readReg_eq_ok {r : Option Reg} {s t : State} (h : readReg r s = .ok t) :
    ∃ p, t = s.setBuf .outbound (s.outbound ++ p) := by
  cases r with
  | none => exact ⟨_, (readByte_eq_ok h).1⟩
  | some r =>
    cases r with
    | mode => exact ⟨_, (readByte_eq_ok h).1⟩
    | setpoint | p | i | d | f | angle | velocity | current => exact ⟨_, (readFloat_eq_ok h).1⟩

theorem readReg_cfg {r : Option Reg} {s t : State} (h : readReg r s = .ok t) : t.cfg = s.cfg := by
  obtain ⟨p, rfl⟩ := readReg_eq_ok h
  rfl

theorem onRead_cfg {a : Byte} {s t : State} (h : onRead a s = .ok t) : t.cfg = s.cfg :=
  readReg_cfg (s := s.invoked (.onRead a)) h

/-! ### Events: everything they can do -/

/-- A payload byte that is stored found room (R165). -/
theorem evPayload_eq_ok {s t : State} (h : evPayload s = .ok t) :
    s.inbound.length ≠ s.cfg.capacity ∧
      t = (s.readDR.2.setBuf .inbound (s.inbound ++ [s.dr])).serveReturn true := by
  by_cases hf : s.inbound.length = s.cfg.capacity
  · simp [evPayload, bind, Except.bind, pushBack_full _ hf] at h
  · rw [evPayload_ok hf] at h
    exact ⟨hf, (Except.ok.inj h).symm⟩

/-- The end of a write runs `on_write` exactly where bytes were received (R169). -/
theorem evStop_eq_ok {s t : State} (h : evStop s = .ok t) :
    ∃ u, ((s.inbound = [] ∧ u = s) ∨ (s.inbound ≠ [] ∧ onWrite s.address s = .ok u)) ∧
      t = ((u.clearBuf .inbound).setEngine .idle).serveReturn true := by
  by_cases hb : s.inbound = []
  · rw [evStop_nil hb] at h
    exact ⟨s, .inl ⟨hb, rfl⟩, (Except.ok.inj h).symm⟩
  · cases hu : onWrite s.address s with
    | ok u =>
      rw [evStop_cons hb hu] at h
      exact ⟨u, .inr ⟨hb, rfl⟩, (Except.ok.inj h).symm⟩
    | error f =>
      have hne : bufEmpty s.inbound = false := by simpa using mt (bufEmpty_iff s.inbound).1 hb
      simp [evStop, hne, hu, bind, Except.bind] at h

/-- A transmitter event sends the next byte, or goes idle where none waits (R171). -/
theorem evTransmit_eq_ok {s t : State} (h : evTransmit s = .ok t) :
    (s.outbound = [] ∧ t = (s.setEngine .idle).serveReturn false) ∨
      ∃ w rest, s.outbound = w :: rest ∧
        t = ((s.setBuf .outbound rest).writeDR w).serveReturn (!bufEmpty rest) := by
  cases hb : s.outbound with
  | nil =>
    rw [evTransmit_nil hb] at h
    exact .inl ⟨rfl, (Except.ok.inj h).symm⟩
  | cons w rest =>
    rw [evTransmit_cons hb] at h
    exact .inr ⟨w, rest, rfl, (Except.ok.inj h).symm⟩

/-- Addressed for read: `on_read` on a cleared outbound, then the first byte is sent (R170). -/
theorem evStartRead_eq_ok {s t : State} (h : evStartRead s = .ok t) :
    ∃ u, onRead s.address (s.clearBuf .outbound) = .ok u ∧ evTransmit u = .ok t := by
  cases hu : onRead s.address (s.clearBuf .outbound) with
  | ok u => exact ⟨u, rfl, by simpa [evStartRead, hu, bind, Except.bind] using h⟩
  | error f => simp [evStartRead, hu, bind, Except.bind] at h

/-- Overflow under the policy that discards (R166). -/
theorem evOverflow_discard {s : State} (h : s.cfg.overflowPolicy = .discard) :
    evOverflow s = ((s.readDR.2.clearBuf .inbound).setEngine .idle).serveReturn false := by
  simp [evOverflow, State.readDR, h]

/-- Overflow under the policy that delivers the bytes stored (R166). -/
theorem evOverflow_deliverFirst64 {s : State} (h : s.cfg.overflowPolicy = .deliverFirst64) :
    evOverflow s = (s.readDR.2.setEngine .idle).serveReturn false := by
  simp [evOverflow, State.readDR, h]

@[simp] theorem evOverflow_cfg (s : State) : (evOverflow s).cfg = s.cfg := by
  cases h : s.cfg.overflowPolicy with
  | discard => rw [evOverflow_discard h]; rfl
  | deliverFirst64 => rw [evOverflow_deliverFirst64 h]; rfl

@[simp] theorem evDataNack_cfg (s : State) : (evDataNack s).cfg = s.cfg := by
  unfold evDataNack
  cases s.state <;> rfl

theorem evPayload_cfg {s t : State} (h : evPayload s = .ok t) : t.cfg = s.cfg := by
  obtain ⟨-, rfl⟩ := evPayload_eq_ok h
  rfl

theorem evStop_cfg {s t : State} (h : evStop s = .ok t) : t.cfg = s.cfg := by
  obtain ⟨u, ⟨-, rfl⟩ | ⟨-, hu⟩, rfl⟩ := evStop_eq_ok h
  · rfl
  · simpa using onWrite_cfg hu

theorem evTransmit_cfg {s t : State} (h : evTransmit s = .ok t) : t.cfg = s.cfg := by
  obtain ⟨-, rfl⟩ | ⟨w, rest, -, rfl⟩ := evTransmit_eq_ok h <;> rfl

theorem evStartRead_cfg {s t : State} (h : evStartRead s = .ok t) : t.cfg = s.cfg := by
  obtain ⟨u, hr, ht⟩ := evStartRead_eq_ok h
  calc t.cfg = u.cfg := evTransmit_cfg ht
    _ = (s.clearBuf .outbound).cfg := onRead_cfg hr
    _ = s.cfg := s.clearBuf_cfg .outbound

/-- `serve` (R160, R161), by the class of the status code. -/
theorem serve_cfg {sc : Byte} {s t : State} (h : serve sc s = .ok t) : t.cfg = s.cfg := by
  unfold serve at h
  cases hc : statusClass s.cfg sc with
  | slaW | gcW | txDataNack | busError | gcDataNack | other => rw [hc] at h; cases h; rfl
  | rxDataNack => rw [hc] at h; cases h; exact evDataNack_cfg s
  | stopOrRestart => rw [hc] at h; exact evStop_cfg h
  | slaR => rw [hc] at h; exact evStartRead_cfg h
  | txDataAck => rw [hc] at h; exact evTransmit_cfg h
  | rxDataAck =>
    rw [hc] at h
    cases hs : s.state with
    | addressing | idle => rw [hs] at h; cases h; rfl
    | writing =>
      rw [hs] at h
      dsimp only at h
      split at h
      · cases h; exact evOverflow_cfg s
      · exact evPayload_cfg h

/-! ### Instructions -/

/-- The outcome of an instruction that cannot fault. -/
theorem cfg_of_next {c : Config} {u t : State} (h : (.next u : Host.Outcome State Fault Refusal) = .next t)
    (hu : u.cfg = c) : t.cfg = c := by
  cases h; exact hu

/-- The outcome of a buffer operation, whose result is put back into the state. -/
theorem cfg_of_finish_map {α : Type} {c : Config} {r : Except Fault α} {f : α → State} {t : State}
    (h : finish (r.map f) = .next t) (hf : ∀ x, (f x).cfg = c) : t.cfg = c := by
  cases r with
  | error e => cases h
  | ok x => cases h; exact hf x

/-- No instruction writes a parameter (R41). -/
theorem exec_cfg {i : Instr} {s t : State} (h : exec i s = .next t) : t.cfg = s.cfg := by
  cases i with
  -- bus events
  | slaW | gcW | rxDataAckAddressing | rxDataAckGcAddressing | rxDataAckIdle | rxDataAckGcIdle | gcDataNack
  | txDataNack | busError | other => exact cfg_of_next h rfl
  | rxDataAckOverflow | rxDataAckGcOverflow => exact cfg_of_next h (evOverflow_cfg s)
  | rxDataNack => exact cfg_of_next h (evDataNack_cfg s)
  | rxDataAckWriting | rxDataAckGcWriting => exact evPayload_cfg (finish_eq_next h)
  | stopOrRestart => exact evStop_cfg (finish_eq_next h)
  | slaR => exact evStartRead_cfg (finish_eq_next h)
  | txDataAck => exact evTransmit_cfg (finish_eq_next h)
  -- register writes and reads
  | wrSetpoint | wrP | wrI | wrD | wrF | wrAngle | wrVelocity | wrCurrent | wrUnrecognized | wrBadLength
  | wrModeInvalid => exact cfg_of_next h rfl
  | wrMode sp m => exact cfg_of_next h (State.transition_cfg _ m sp)
  | rdSetpoint | rdMode | rdP | rdI | rdD | rdF | rdAngle | rdVelocity | rdCurrent | rdUnrecognized =>
    exact cfg_of_finish_map h fun x => s.setBuf_cfg .outbound x
  -- the entry point and the callbacks
  | serve sc => exact serve_cfg (finish_eq_next h)
  | onWrite a => exact onWrite_cfg (finish_eq_next h)
  | onRead a => exact onRead_cfg (finish_eq_next h)
  -- device operations
  | transitionState m sp => exact cfg_of_next h (s.transition_cfg m sp)
  | setP | setI | setD | setF | setSetpoint | getP | getI | getD | getF | getSetpoint | getMode | getAngle | getVel
  | getCurrent | getOutput | tick => exact cfg_of_next h rfl
  -- ring buffers and the codec
  | rbSize | rbFull | rbEmpty | encodeF32 | decodeF32 => exact cfg_of_next h rfl
  | rbClear b => exact cfg_of_next h (s.clearBuf_cfg b)
  | rbPushBack b | rbPushFront b | rbPopFront b | rbPopBack b | pushFloat b | popFloat b =>
    exact cfg_of_finish_map h fun x => s.setBuf_cfg b _
  | pushBytePopByte b op =>
    cases op with
    | push | pop => exact cfg_of_finish_map h fun x => s.setBuf_cfg b _

/-! ### The step -/

@[simp] theorem State.deliver_cfg (s : State) (r : Request) (rest : List Request) : (s.deliver r rest).cfg = s.cfg := by
  cases r <;> rfl

/-- All that a step which answers a next state can have done: nothing but clear the outputs (nothing pending, or an event
held back by the mask), or execute the instruction of the oldest request on the delivered state. -/
theorem step_eq_next {s t : State} (h : step s = .next t) :
    s.cfg.ok = true ∧
      ((s.pending = [] ∧ t = s.quiet) ∨
        ∃ r rest, s.pending = r :: rest ∧
          (((s.im && r.isInterrupt) = true ∧ t = s.quiet) ∨
            ((s.im && r.isInterrupt) = false ∧
              ∃ i, decode s.cfg (fetch s r) = .ok i ∧ exec i (s.deliver r rest) = .next t))) := by
  unfold step at h
  split at h
  case isFalse => cases h
  case isTrue hok =>
    refine ⟨hok, ?_⟩
    cases hp : s.pending with
    | nil => rw [hp] at h; cases h; exact .inl ⟨rfl, rfl⟩
    | cons r rest =>
      rw [hp] at h
      refine .inr ⟨r, rest, rfl, ?_⟩
      dsimp only at h
      split at h
      case isTrue hm => cases h; exact .inl ⟨hm, rfl⟩
      case isFalse hm =>
        cases hd : decode s.cfg (fetch s r) with
        | error e => rw [hd] at h; cases h
        | ok i => rw [hd] at h; exact .inr ⟨Bool.eq_false_iff.2 hm, i, rfl, h⟩

/-- Settles O46: a step clears the outputs, or delivers a request and executes its instruction, and neither writes `cfg`. -/
theorem stepKeepsConfiguration : Obligations.StepKeepsConfiguration := by
  intro s t h
  obtain ⟨-, ⟨-, rfl⟩ | ⟨r, rest, -, ⟨-, rfl⟩ | ⟨-, i, -, hx⟩⟩⟩ := step_eq_next h
  · exact s.quiet_cfg
  · exact s.quiet_cfg
  · exact (exec_cfg hx).trans (s.deliver_cfg r rest)

end Sys2Proof.Machine

/-! ## What serving an event and running a tick can do

`EventEffect` lists the actions of the rules R162 to R175 with their conditions; `serve`, and a step that serves an event, do
one of them. From it and from the state after a tick: who writes `DR`, `address`, the sensor fields and the mode (R21, R26,
R29, R35). Last, reset (R43) and the steps that run no instruction. -/

namespace Sys2Proof.Machine

open Sys2Proof.Claims

/-! ### The callbacks: what they leave unchanged -/

/-- What a callback leaves: the selector register, the bus controller's data register with the record of its accesses, the
sensor fields and the values driven (R35, R180). -/
structure CallbackFrame (s t : State) : Prop where
  address : t.address = s.address
  dr : t.dr = s.dr
  drReads : t.out.drReads = s.out.drReads
  drWrites : t.out.drWrites = s.out.drWrites
  drives : t.out.drives = s.out.drives
  prevEncoder : t.prevEncoder = s.prevEncoder
  currentEncoder : t.currentEncoder = s.currentEncoder
  currentReading : t.currentReading = s.currentReading

theorem CallbackFrame.refl (s : State) : CallbackFrame s s := ⟨rfl, rfl, rfl, rfl, rfl, rfl, rfl, rfl⟩

/-- What `on_write` has done besides draining the payload (R201 to R213): nothing, or one setter, or, by the mode selector
with a payload of five bytes that ends in the byte of a mode, a switch to that mode. -/
theorem onWrite_effect {a : Byte} {s t : State} (h : onWrite a s = .ok t) :
    ∃ u, u = (s.invoked (.onWrite a s.inbound)).clearBuf .inbound ∧
      (t = u ∨ (∃ x v, t = u.setField x v) ∨
        ∃ m sp w0 w1 w2 w3, a = s.cfg.selMode ∧ s.inbound = [w0, w1, w2, w3, s.cfg.modeEnc.get m] ∧
          t = u.transition m sp) := by
  refine ⟨_, rfl, ?_⟩
  simp only [onWrite, State.invoked_cfg] at h
  cases hr : regOf s.cfg a with
  | none => rw [hr] at h; exact .inl (Except.ok.inj h).symm
  | some r =>
    rw [hr] at h
    cases r with
    | angle | velocity | current => exact .inl (Except.ok.inj h).symm
    | setpoint | p | i | d | f =>
      obtain ⟨-, ht⟩ | ⟨_, _, _, _, -, ht⟩ := writeFloat_eq_ok h
      · exact .inl ht
      · exact .inr (.inl ⟨_, _, ht⟩)
    | mode =>
      obtain ⟨-, ht⟩ | ⟨w0, w1, w2, w3, mb, hb, ⟨-, ht⟩ | ⟨m, hm, ht⟩⟩ := writeMode_eq_ok h
      · exact .inl ht
      · exact .inl ht
      · obtain rfl := modeEnc_of_modeOf hm
        exact .inr (.inr ⟨m, _, w0, w1, w2, w3, (selectorOf_of_regOf hr).symm, hb, ht⟩)

theorem onWrite_frame {a : Byte} {s t : State} (h : onWrite a s = .ok t) : CallbackFrame s t := by
  obtain ⟨u, rfl, rfl | ⟨x, v, rfl⟩ | ⟨m, sp, _, _, _, _, -, -, rfl⟩⟩ := onWrite_effect h
  · exact ⟨rfl, rfl, rfl, rfl, rfl, rfl, rfl, rfl⟩
  · exact ⟨rfl, rfl, rfl, rfl, rfl, rfl, rfl, rfl⟩
  · constructor <;> simp [State.clearBuf]

theorem onRead_frame {a : Byte} {s t : State} (h : onRead a s = .ok t) : CallbackFrame s t := by
  obtain ⟨p, rfl⟩ := readReg_eq_ok h
  exact ⟨rfl, rfl, rfl, rfl, rfl, rfl, rfl, rfl⟩

theorem onRead_mode {a : Byte} {s t : State} (h : onRead a s = .ok t) : t.mode = s.mode := by
  obtain ⟨p, rfl⟩ := readReg_eq_ok h
  rfl

/-! ### `serve`: everything it can do -/

/-- The effect of an event of a class on a state (R162 to R175): one constructor for each action of the rules, with the
condition under which it runs. -/
inductive EventEffect (s : State) : EventClass → State → Prop where
  | addressed {c} (hc : c = .slaW ∨ c = .gcW) : EventEffect s c (evStartWrite s)
  | captured (hs : s.state = .addressing) : EventEffect s .rxDataAck (evSelector s)
  | stored (hs : s.state = .writing) (hroom : s.inbound.length ≠ s.cfg.capacity) :
      EventEffect s .rxDataAck ((s.readDR.2.setBuf .inbound (s.inbound ++ [s.dr])).serveReturn true)
  | overflowed {b} (hs : s.state = .writing) (hfull : s.inbound.length = s.cfg.capacity)
      (hb : s.cfg.overflowPolicy = .discard ∧ b = [] ∨ s.cfg.overflowPolicy = .deliverFirst64 ∧ b = s.inbound) :
      EventEffect s .rxDataAck (((s.readDR.2.setBuf .inbound b).setEngine .idle).serveReturn false)
  | dropped {c}
      (hc : c = .rxDataAck ∧ s.state = .idle ∨ c = .rxDataNack ∧ s.state ≠ .addressing ∨ c = .busError ∨
        c = .gcDataNack ∨ c = .other) :
      EventEffect s c (evDrop s)
  | ignored (hs : s.state = .addressing) : EventEffect s .rxDataNack (s.serveReturn true)
  | stopped {u}
      (hu : s.inbound = [] ∧ u = s ∨ s.inbound ≠ [] ∧ onWrite s.address s = .ok u) :
      EventEffect s .stopOrRestart (((u.clearBuf .inbound).setEngine .idle).serveReturn true)
  | transmitted {c u t}
      (hu : c = .txDataAck ∧ u = s ∨ c = .slaR ∧ onRead s.address (s.clearBuf .outbound) = .ok u)
      (ht : evTransmit u = .ok t) : EventEffect s c t
  | readEnded : EventEffect s .txDataNack (evReadEnd s)

/-- A data byte not acknowledged is ignored while the selector is awaited, else it ends the write (R168). -/
theorem evDataNack_effect (s : State) : EventEffect s .rxDataNack (evDataNack s) := by
  unfold evDataNack
  cases hs : s.state with
  | addressing => exact .ignored hs
  | writing | idle => exact .dropped (.inr (.inl ⟨rfl, by simp [hs]⟩))

/-- A data byte for which there is no room is read away, and the policy decides what inbound keeps (R166). -/
theorem evOverflow_effect {s : State} (hs : s.state = .writing) (hfull : s.inbound.length = s.cfg.capacity) :
    EventEffect s .rxDataAck (evOverflow s) := by
  cases h : s.cfg.overflowPolicy with
  | discard => rw [evOverflow_discard h]; exact .overflowed hs hfull (.inl ⟨h, rfl⟩)
  | deliverFirst64 => rw [evOverflow_deliverFirst64 h]; exact .overflowed hs hfull (.inr ⟨h, rfl⟩)

/-- What `serve` does is the effect of the status code's class (R160, R161). -/
theorem serve_effect {sc : Byte} {s t : State} (h : serve sc s = .ok t) : EventEffect s (statusClass s.cfg sc) t := by
  unfold serve at h
  cases hc : statusClass s.cfg sc with
  | slaW | gcW => rw [hc] at h; cases h; exact .addressed (by simp)
  | busError | gcDataNack | other => rw [hc] at h; cases h; exact .dropped (by simp)
  | txDataNack => rw [hc] at h; cases h; exact .readEnded
  | rxDataNack => rw [hc] at h; cases h; exact evDataNack_effect s
  | stopOrRestart =>
    rw [hc] at h
    obtain ⟨u, hu, rfl⟩ := evStop_eq_ok h
    exact .stopped hu
  | slaR =>
    rw [hc] at h
    obtain ⟨u, hu, ht⟩ := evStartRead_eq_ok h
    exact .transmitted (.inr ⟨rfl, hu⟩) ht
  | txDataAck => rw [hc] at h; exact .transmitted (.inl ⟨rfl, rfl⟩) h
  | rxDataAck =>
    rw [hc] at h
    cases hs : s.state with
    | addressing => rw [hs] at h; cases h; exact .captured hs
    | idle => rw [hs] at h; cases h; exact .dropped (.inl ⟨rfl, hs⟩)
    | writing =>
      rw [hs] at h
      dsimp only at h
      split at h
      case isTrue hf => cases h; exact evOverflow_effect hs ((bufFull_iff _ _).1 hf)
      case isFalse =>
        obtain ⟨hroom, rfl⟩ := evPayload_eq_ok h
        exact .stored hs hroom

/-! ### A step that serves an event or runs a tick -/

/-- The instruction the decoder reads from an event does what `serve` does (R116, R161). -/
theorem exec_decodeEvent (sc : Byte) (s : State) :
    exec (decodeEvent s.cfg sc s.state (bufFull s.cfg.capacity s.inbound)) s = finish (serve sc s) := by
  unfold decodeEvent serve statusClass
  cases statusRow s.cfg sc with
  | rxDataAck | rxDataAckGc =>
    cases hs : s.state with
    | addressing | idle => rfl
    | writing => cases hf : bufFull s.cfg.capacity s.inbound <;> simp [classOf] <;> rfl
  | slaW | gcW | rxDataNack | gcDataNack | stopOrRestart | slaR | txDataAck | txDataNack | busError | other => rfl

theorem State.deliver_event (s : State) (sc d : Byte) (rest : List Request) :
    s.deliver (.event sc d) rest = { s with pending := rest, out := {}, dr := d } := rfl

/-- A step with a request pending and the mask clear executes what the request encodes. -/
theorem step_exec_of_pending {s t : State} {r : Request} {rest : List Request} (hp : s.pending = r :: rest)
    (him : s.im = false) (h : step s = .next t) :
    ∃ i, decode s.cfg (fetch s r) = .ok i ∧ exec i (s.deliver r rest) = .next t := by
  obtain ⟨-, ⟨hn, -⟩ | ⟨r', rest', hp', ⟨hm, -⟩ | ⟨-, hi⟩⟩⟩ := step_eq_next h
  · rw [hp] at hn; cases hn
  · simp [him] at hm
  · rw [hp] at hp'; cases hp'; exact hi

/-- A step that serves an event has the event's effect on the delivered state. -/
theorem step_event_effect {s t : State} {sc d : Byte} {rest : List Request} (hp : s.pending = .event sc d :: rest)
    (him : s.im = false) (h : step s = .next t) :
    EventEffect { s with pending := rest, out := {}, dr := d } (statusClass s.cfg sc) t := by
  obtain ⟨i, hd, hx⟩ := step_exec_of_pending hp him h
  obtain rfl := Except.ok.inj hd
  rw [State.deliver_event] at hx
  exact serve_effect (finish_eq_next ((exec_decodeEvent sc _).symm.trans hx))

/-- The state after a tick (R282). -/
def State.ticked (s : State) (e : U16) (x : F32) : State :=
  let u := (s.setIM true).sample e x
  (u.output.2.drive u.output.1).setIM false

/-! A tick leaves the mode and the engine: its registers, its buffers, `DR` and `ack_en` (R283). -/

@[simp] theorem State.ticked_mode (s : State) (e : U16) (x : F32) : (s.ticked e x).mode = s.mode := by simp [State.ticked]
@[simp] theorem State.ticked_state (s : State) (e : U16) (x : F32) : (s.ticked e x).state = s.state := by simp [State.ticked]
@[simp] theorem State.ticked_address (s : State) (e : U16) (x : F32) : (s.ticked e x).address = s.address := by simp [State.ticked]
@[simp] theorem State.ticked_inbound (s : State) (e : U16) (x : F32) : (s.ticked e x).inbound = s.inbound := by simp [State.ticked]
@[simp] theorem State.ticked_outbound (s : State) (e : U16) (x : F32) : (s.ticked e x).outbound = s.outbound := by simp [State.ticked]
@[simp] theorem State.ticked_dr (s : State) (e : U16) (x : F32) : (s.ticked e x).dr = s.dr := by simp [State.ticked]
@[simp] theorem State.ticked_ackEn (s : State) (e : U16) (x : F32) : (s.ticked e x).ackEn = s.ackEn := by simp [State.ticked]

/-- A step that runs a tick ends in the ticked state. -/
theorem step_tick_eq {s t : State} {e : U16} {x : F32} {rest : List Request} (hp : s.pending = .call (.tick e x) :: rest)
    (him : s.im = false) (h : step s = .next t) : t = State.ticked { s with pending := rest, out := {} } e x := by
  obtain ⟨i, hd, hx⟩ := step_exec_of_pending hp him h
  obtain rfl : .tick e x = i := Except.ok.inj hd
  cases hx
  rfl

/-- A bus event or a tick (R74). -/
theorem isNative_iff {r : Request} :
    r.isNative = true ↔ (∃ sc d, r = .event sc d) ∨ ∃ e x, r = .call (.tick e x) := by
  constructor
  · intro h
    cases r with
    | event sc d => exact .inl ⟨sc, d, rfl⟩
    | regWrite | regRead => cases h
    | call i =>
      cases i with
      | tick e x => exact .inr ⟨e, x, rfl⟩
      | _ => cases h
  · rintro (⟨sc, d, rfl⟩ | ⟨e, x, rfl⟩) <;> rfl

/-! ### What precedes the end of a write and before a transmission -/

/-- The end of a write has run at most `on_write` before it goes idle (R169). -/
theorem callbackFrame_of_stopped {s u : State}
    (hu : s.inbound = [] ∧ u = s ∨ s.inbound ≠ [] ∧ onWrite s.address s = .ok u) : CallbackFrame s u := by
  obtain ⟨-, rfl⟩ | ⟨-, hw⟩ := hu
  · exact .refl _
  · exact onWrite_frame hw

/-- A transmitter event has run at most `on_read` on a cleared outbound before it looks for a byte (R170, R171). -/
theorem callbackFrame_of_transmitted {s u : State} {c : EventClass}
    (hu : c = .txDataAck ∧ u = s ∨ c = .slaR ∧ onRead s.address (s.clearBuf .outbound) = .ok u) :
    CallbackFrame s u := by
  obtain ⟨-, rfl⟩ | ⟨-, hr⟩ := hu
  · exact .refl _
  · obtain ⟨ha, hd, hdr, hdw, hv, hp, hc, hx⟩ := onRead_frame hr
    exact ⟨ha, hd, hdr, hdw, hv, hp, hc, hx⟩

/-! ### The data register (R26) -/

/-- An event reads `DR` once where it takes a data byte, and not at all elsewhere. -/
theorem EventEffect.drReads {s t : State} {c : EventClass} (h : EventEffect s c t) :
    t.out.drReads = s.out.drReads + if c = .rxDataAck ∧ s.state ≠ .idle then 1 else 0 := by
  cases h with
  | captured hs | stored hs | overflowed hs => rw [if_pos (by simp [hs])]; rfl
  | addressed hc => obtain rfl | rfl := hc <;> rfl
  | dropped hc => rw [if_neg (by grind)]; rfl
  | ignored | readEnded => rfl
  | stopped hu => exact (callbackFrame_of_stopped hu).drReads
  | transmitted hu ht =>
    rw [if_neg (by grind), Nat.add_zero, ← (callbackFrame_of_transmitted hu).drReads]
    obtain ⟨-, rfl⟩ | ⟨w, rest, -, rfl⟩ := evTransmit_eq_ok ht <;> rfl

/-- An event writes `DR` at most once, and only where it transmits; the byte written stays there. -/
theorem EventEffect.drWrites {s t : State} {c : EventClass} (h : EventEffect s c t) :
    (t.out.drWrites = s.out.drWrites ∧ t.dr = s.dr) ∨
      ((c = .slaR ∨ c = .txDataAck) ∧ ∃ w, t.out.drWrites = s.out.drWrites ++ [w] ∧ t.dr = w) := by
  cases h with
  | addressed | captured | stored | overflowed | dropped | ignored | readEnded => exact .inl ⟨rfl, rfl⟩
  | stopped hu =>
    have hf := callbackFrame_of_stopped hu
    exact .inl ⟨hf.drWrites, hf.dr⟩
  | transmitted hu ht =>
    have hf := callbackFrame_of_transmitted hu
    obtain ⟨-, rfl⟩ | ⟨w, rest, -, rfl⟩ := evTransmit_eq_ok ht
    · exact .inl ⟨hf.drWrites, hf.dr⟩
    · exact .inr ⟨by tauto, w, congrArg (· ++ [w]) hf.drWrites, rfl⟩

/-- Settles O39: the step has the event's effect on the delivered state, in which nothing is recorded and the event's byte
stands in `DR`. -/
theorem dataRegisterDiscipline : Obligations.DataRegisterDiscipline := by
  intro sc d rest s t hp him h
  have he := step_event_effect hp him h
  have hr : t.out.drReads = if statusClass s.cfg sc = .rxDataAck ∧ s.state ≠ .idle then 1 else 0 :=
    he.drReads.trans (Nat.zero_add _)
  refine ⟨by rw [hr]; split <;> omega, ?writes, by simp [hr], ?values⟩
  case writes => obtain ⟨hw, -⟩ | ⟨-, w, hw, -⟩ := he.drWrites <;> simp [hw]
  case values =>
    obtain ⟨hw, hd⟩ | ⟨hc, w, hw, hd⟩ := he.drWrites
    · simp [hw, hd]
    · exact ⟨fun _ => hc, by simp [hw, hd]⟩

/-! ### The selector register (R21) -/

/-- An event writes `address` only where it captures the selector byte. -/
theorem EventEffect.address {s t : State} {c : EventClass} (h : EventEffect s c t) :
    t.address = s.address ∨ (c = .rxDataAck ∧ s.state = .addressing ∧ t.address = s.dr) := by
  cases h with
  | captured hs => exact .inr ⟨rfl, hs, rfl⟩
  | addressed | stored | overflowed | dropped | ignored | readEnded => exact .inl rfl
  | stopped hu => exact .inl (callbackFrame_of_stopped hu).address
  | transmitted hu ht =>
    have hf := callbackFrame_of_transmitted hu
    obtain ⟨-, rfl⟩ | ⟨w, rest, -, rfl⟩ := evTransmit_eq_ok ht <;> exact .inl hf.address

/-- Settles O41: a tick leaves `address`, and an event writes it only by capturing the selector byte. -/
theorem addressChangesOnlyByCapture : Obligations.AddressChangesOnlyByCapture := by
  intro s t r rest hp him hn h hne
  obtain ⟨sc, d, rfl⟩ | ⟨e, x, rfl⟩ := isNative_iff.1 hn
  · obtain heq | ⟨hc, hs, hd⟩ := (step_event_effect hp him h).address
    · exact absurd heq hne
    · exact ⟨sc, d, rfl, hc, hs, hd⟩
  · obtain rfl := step_tick_eq hp him h
    exact absurd (State.ticked_address _ e x) hne

/-! ### The sensor fields and what a tick leaves (R35, R283) -/

/-- An event leaves the sensor fields and drives nothing. -/
theorem EventEffect.sensors {s t : State} {c : EventClass} (h : EventEffect s c t) :
    t.prevEncoder = s.prevEncoder ∧ t.currentEncoder = s.currentEncoder ∧ t.currentReading = s.currentReading ∧
      t.out.drives = s.out.drives := by
  cases h with
  | addressed | captured | stored | overflowed | dropped | ignored | readEnded => exact ⟨rfl, rfl, rfl, rfl⟩
  | stopped hu =>
    have hf := callbackFrame_of_stopped hu
    exact ⟨hf.prevEncoder, hf.currentEncoder, hf.currentReading, hf.drives⟩
  | transmitted hu ht =>
    have hf := callbackFrame_of_transmitted hu
    obtain ⟨-, rfl⟩ | ⟨w, rest, -, rfl⟩ := evTransmit_eq_ok ht <;>
      exact ⟨hf.prevEncoder, hf.currentEncoder, hf.currentReading, hf.drives⟩

theorem fieldOf_eq_pidField (q : Pid) (y : PidField) : fieldOf q y = pidField q y := by
  cases y <;> rfl

/-- A tick leaves every gain and every setpoint: the control law writes the active accumulator alone (R278, R294). -/
theorem State.ticked_field (s : State) (e : U16) (x : F32) (m : Mode) (y : PidField) :
    pidField ((s.ticked e x).pid.get m) y = pidField (s.pid.get m) y := by
  by_cases hm : m = s.mode
  · subst hm
    simp [State.ticked]
  · simp [State.ticked, perMode_get_set_ne _ _ hm]

/-- Settles O42: from what an event does to the sensor fields and what a tick does to the bank. -/
theorem eachFieldGroupHasOneWriter : Obligations.EachFieldGroupHasOneWriter := by
  intro s t r rest hp him h
  constructor
  · rintro sc d rfl
    exact (step_event_effect hp him h).sensors
  · rintro e x rfl
    obtain rfl := step_tick_eq hp him h
    have hfield (m : Mode) (y : PidField) := State.ticked_field { s with pending := rest, out := {} } e x m y
    simpa [fieldOf_eq_pidField] using hfield

/-! ### The mode (R29, R207) -/

/-- `on_write` changes the mode only by the mode selector and a payload that ends in the new mode's byte. -/
theorem onWrite_mode {a : Byte} {s t : State} (h : onWrite a s = .ok t) :
    t.mode = s.mode ∨
      (a = s.cfg.selMode ∧ ∃ w0 w1 w2 w3, s.inbound = [w0, w1, w2, w3, s.cfg.modeEnc.get t.mode]) := by
  obtain ⟨u, rfl, rfl | ⟨x, v, rfl⟩ | ⟨m, sp, w0, w1, w2, w3, ha, hb, rfl⟩⟩ := onWrite_effect h
  · exact .inl rfl
  · exact .inl rfl
  · rw [State.transition_mode]
    exact .inr ⟨ha, w0, w1, w2, w3, hb⟩

/-- An event changes the mode only at the end of a write, through `on_write`. -/
theorem EventEffect.mode {s t : State} {c : EventClass} (h : EventEffect s c t) :
    t.mode = s.mode ∨
      (c = .stopOrRestart ∧ s.address = s.cfg.selMode ∧
        ∃ w0 w1 w2 w3, s.inbound = [w0, w1, w2, w3, s.cfg.modeEnc.get t.mode]) := by
  cases h with
  | addressed | captured | stored | overflowed | dropped | ignored | readEnded => exact .inl rfl
  | stopped hu =>
    obtain ⟨-, rfl⟩ | ⟨-, hw⟩ := hu
    · exact .inl rfl
    · exact (onWrite_mode hw).imp id fun hm => ⟨rfl, hm⟩
  | @transmitted _ u _ hu ht =>
    have hm : u.mode = s.mode := by
      obtain ⟨-, rfl⟩ | ⟨-, hr⟩ := hu
      · rfl
      · exact onRead_mode (s := s.clearBuf .outbound) hr
    obtain ⟨-, rfl⟩ | ⟨w, rest, -, rfl⟩ := evTransmit_eq_ok ht <;> exact .inl hm

/-- Settles O43: a tick leaves the mode, and an event changes it only by a mode write. -/
theorem modeChangesOnlyByModeWrite : Obligations.ModeChangesOnlyByModeWrite := by
  intro s t r rest _ hp him hn h hne
  obtain ⟨sc, d, rfl⟩ | ⟨e, x, rfl⟩ := isNative_iff.1 hn
  · obtain heq | ⟨hc, ha, w0, w1, w2, w3, hb⟩ := (step_event_effect hp him h).mode
    · exact absurd heq hne
    · exact ⟨sc, d, w0, w1, w2, w3, rfl, hc, ha, hb⟩
  · obtain rfl := step_tick_eq hp him h
    exact absurd (State.ticked_mode _ e x) hne

/-! ### Reset (R43) -/

/-- Settles O49: both buffers are empty, the engine is idle and the mask is clear. -/
theorem resetSatisfiesInvariant : Obligations.ResetSatisfiesInvariant := by
  intro c hok
  exact
    { cfg_ok := hok
      inbound_le := Nat.zero_le _
      outbound_le := Nat.zero_le _
      im_clear := rfl
      addressing_empty := fun _ => rfl
      outbound_le_three := Nat.zero_le _ }

/-- The PID bank after reset, mode by mode. -/
theorem State.resetWith_pid (c : Config) (m : Mode) : (State.resetWith c).pid.get m = Pid.afterReset c m := by
  cases m <;> rfl

/-- Settles O50: field by field, and for the bank mode by mode. -/
theorem resetValues : Obligations.ResetValues := by
  intro c
  exact ⟨rfl, rfl, rfl, rfl, rfl, rfl, State.resetWith_pid c, rfl, rfl, rfl, rfl, rfl⟩

/-! ### Steps that run no instruction (R37, R100, R179) -/

theorem step_badConfig {s : State} (h : s.cfg.ok = false) : step s = .refused .badConfig := by
  simp [step, h]

theorem step_nothingPending {s : State} (hok : s.cfg.ok = true) (hp : s.pending = []) : step s = .next s.quiet := by
  simp [step, hok, hp]

theorem step_masked {s : State} {r : Request} {rest : List Request} (hok : s.cfg.ok = true) (him : s.im = true)
    (hp : s.pending = r :: rest) (hr : r.isInterrupt = true) : step s = .next s.quiet := by
  simp [step, hok, hp, him, hr]

/-- Settles O52: an event and a direct call of `serve` are the requests the mask holds back. -/
theorem stepWaitsOrRefuses : Obligations.StepWaitsOrRefuses := by
  intro s
  refine ⟨step_badConfig, step_nothingPending, fun sc d rest hok him hp => ?_⟩
  obtain hp | hp := hp
  · exact step_masked hok him hp rfl
  · exact step_masked hok him hp rfl

end Sys2Proof.Machine

/-! ## The step that runs an instruction

What each request becomes when it is delivered (R26, R99, R230; log 2, 14, 16, 18), and the step that executes what the
oldest request encodes (R74, R75). -/

namespace Sys2Proof.Machine

/-! ### What the decoder reads of an event and of a call -/

theorem fetch_event (s : State) (sc d : Byte) :
    fetch s (.event sc d) = .event sc s.state (decide (s.inbound.length = s.cfg.capacity)) := by
  simp only [fetch, bufFull_eq_decide]

/-- A call that decodes is its own instruction (R116). -/
theorem eq_of_decode_call {c : Config} {i j : Instr} (h : decode c (.call j) = .ok i) : i = j := by
  simp only [decode] at h
  split at h
  case isTrue => exact (Except.ok.inj h).symm
  case isFalse => cases h

/-! ### The delivered state of the other requests -/

theorem State.deliver_regWrite (s : State) (rest : List Request) :
    s.deliver .regWrite rest =
      { s with pending := rest, inbound := [], out := { callbacks := [.onWrite s.address s.inbound] } } := rfl

theorem State.deliver_regRead (s : State) (rest : List Request) :
    s.deliver .regRead rest =
      { s with pending := rest, outbound := [], out := { callbacks := [.onRead s.address] } } := rfl

theorem State.deliver_call (s : State) (j : Instr) (rest : List Request) :
    s.deliver (.call j) rest = { s with pending := rest, out := {} } := rfl

/-! ### The step -/

/-- A step whose oldest request is not held back executes what the request encodes, whatever comes of it. -/
theorem step_eq_exec {s : State} {r : Request} {rest : List Request} {i : Instr} (hok : s.cfg.ok = true)
    (hp : s.pending = r :: rest) (hm : (s.im && r.isInterrupt) = false) (hd : decode s.cfg (fetch s r) = .ok i) :
    step s = exec i (s.deliver r rest) := by
  simp [step, hok, hp, hm, hd]

/-- Settles O51: no request is held back, a clear mask holding back none and a register operation being no interrupt, so the
step executes the decoded instruction on the delivered state. -/
theorem stepRunsDecodedInstruction : Obligations.StepRunsDecodedInstruction := by
  intro s rest i hok
  have unmasked (r : Request) (him : s.im = false) : (s.im && r.isInterrupt) = false := by rw [him, Bool.false_and]
  refine ⟨fun sc d hp him hd => ?event, fun hp hd => ?regWrite, fun hp hd => ?regRead, fun j hp him hd => ?call⟩
  case event =>
    rw [← fetch_event s sc d] at hd
    rw [step_eq_exec hok hp (unmasked _ him) hd, State.deliver_event]
  case regWrite => rw [step_eq_exec hok hp (Bool.and_false _) hd, State.deliver_regWrite]
  case regRead => rw [step_eq_exec hok hp (Bool.and_false _) hd, State.deliver_regRead]
  case call => exact ⟨eq_of_decode_call hd, by rw [step_eq_exec hok hp (unmasked _ him) hd, State.deliver_call]⟩

end Sys2Proof.Machine

/-! ## The decoder and the encoder undo one another

The wire form of a float and its pattern (R101), then for each kind of row what the decoder reads and what the encoder
writes: calls (R116), events (R96, R116), register reads and writes (R99 to R104, R110 to R114). Last, the requests that
encode no instruction (log 23). -/

namespace Sys2Proof.Machine

open Sys2Proof.Claims

/-! ### The payload of a float -/

/-! Both directions hold bit by bit, in either byte order. -/

/-- The four bytes of the wire form of a pattern decode to it (R150, R151). -/
theorem wireF32_eq_bytes (o : FloatOrder) (v : F32) :
    ∃ w0 w1 w2 w3, wireF32 o v = [w0, w1, w2, w3] ∧ decodeF32 o w0 w1 w2 w3 = v := by
  refine ⟨_, _, _, _, rfl, ?_⟩
  cases o <;> simp only [decodeF32] <;> ext i hi <;> grind

/-- Four bytes are the wire form of the pattern they decode to (R150, R151). -/
theorem wireF32_decodeF32 (o : FloatOrder) (w0 w1 w2 w3 : Byte) :
    wireF32 o (decodeF32 o w0 w1 w2 w3) = [w0, w1, w2, w3] := by
  cases o <;> simp only [wireF32, encodeF32, decodeF32, List.cons.injEq, and_true] <;>
    refine ⟨?_, ?_, ?_, ?_⟩ <;> ext i hi <;> grind

/-! ### Calls (R116) -/

theorem encode_of_call {c : Config} {i : Instr} (h : i.space = .call) : encode c i = some (.call i) := by
  cases i with
  | serve | onWrite | onRead | transitionState | setP | setI | setD | setF | setSetpoint | getP | getI | getD | getF
  | getSetpoint | getMode | getAngle | getVel | getCurrent | getOutput | tick | rbSize | rbFull | rbEmpty | rbPushBack
  | rbPushFront | rbPopFront | rbPopBack | rbClear | encodeF32 | decodeF32 | pushFloat | popFloat | pushBytePopByte => rfl
  | _ => cases h

theorem decode_call (c : Config) {i : Instr} (h : i.space = .call) : decode c (.call i) = .ok i := if_pos h

theorem decode_notACall (c : Config) {i : Instr} (h : i.space ≠ .call) : decode c (.call i) = .error .notACall := if_neg h

/-- A call that decodes is a row of the table that is called (R116). -/
theorem space_of_decode_call {c : Config} {i j : Instr} (h : decode c (.call j) = .ok i) : j.space = .call := by
  by_contra hs
  rw [decode_notACall c hs] at h
  cases h

/-! ### Events (R96, R116) -/

/-- Where every code of a line decodes to `i` under a condition, so does the code the encoder writes for the line. -/
theorem decode_of_encodeEvent {c : Config} {r : StatusRow} {st : EngineState} {full : Bool} {i : Instr} {e : Encoded}
    (hok : c.ok = true) (he : encodeEvent c r st full = some e)
    (hi : ∀ sc, statusRow c sc = r → decodeEvent c sc st full = i) : decode c e = .ok i := by
  obtain ⟨sc, hsc, rfl⟩ := Option.map_eq_some_iff.1 he
  exact congrArg Except.ok (hi sc (statusRow_of_codeOf hok hsc))

theorem decode_encode_event {c : Config} {i : Instr} {e : Encoded} (hs : i.space = .statusCode) (hok : c.ok = true)
    (hwf : i.wellFormed c = true) (he : encode c i = some e) : decode c e = .ok i := by
  cases i with
  | slaW | gcW | rxDataAckAddressing | rxDataAckWriting | rxDataAckOverflow | rxDataAckIdle | rxDataAckGcAddressing
  | rxDataAckGcWriting | rxDataAckGcOverflow | rxDataAckGcIdle | rxDataNack | gcDataNack | stopOrRestart | slaR | txDataAck
  | txDataNack | busError =>
    refine decode_of_encodeEvent hok he fun sc hr => ?_
    simp only [decodeEvent, hr, decodeRxDataAck, decodeRxDataAckGc]
  | other sc =>
    cases he
    have hr : statusRow c sc = .other := by simpa [Instr.wellFormed] using hwf
    simp only [decode, decodeEvent, hr]
  | _ => cases hs

/-- What the decoder reads from an event: on a line other than `other` it looks at the line alone, not at the code. -/
theorem decodeEvent_congr {c : Config} {sc sc' : Byte} (h : statusRow c sc' = statusRow c sc)
    (hr : statusRow c sc ≠ .other) (st : EngineState) (full : Bool) :
    decodeEvent c sc' st full = decodeEvent c sc st full := by
  unfold decodeEvent
  rw [h]
  cases hs : statusRow c sc with
  | other => exact absurd hs hr
  | _ => rfl

/-- The encoder finds the line of a decoded event again, and a condition under which it is decoded so (R116). -/
theorem encode_decodeEvent {c : Config} {sc : Byte} (hr : statusRow c sc ≠ .other) (st : EngineState) (full : Bool) :
    ∃ st' full', encode c (decodeEvent c sc st full) = encodeEvent c (statusRow c sc) st' full' ∧
      decodeEvent c sc st' full' = decodeEvent c sc st full := by
  unfold decodeEvent
  cases hs : statusRow c sc with
  | rxDataAck | rxDataAckGc =>
    cases st with
    | addressing | idle => exact ⟨_, _, rfl, rfl⟩
    | writing => cases full <;> exact ⟨_, _, rfl, rfl⟩
  | other => exact absurd hs hr
  | slaW | gcW | rxDataNack | gcDataNack | stopOrRestart | slaR | txDataAck | txDataNack | busError =>
    exact ⟨_, _, rfl, rfl⟩

theorem decodeEvent_wellFormed (c : Config) (sc : Byte) (st : EngineState) (full : Bool) :
    (decodeEvent c sc st full).wellFormed c = true := by
  unfold decodeEvent
  cases hs : statusRow c sc with
  | rxDataAck | rxDataAckGc => cases st <;> cases full <;> rfl
  | other => simp [Instr.wellFormed, hs]
  | slaW | gcW | rxDataNack | gcDataNack | stopOrRestart | slaR | txDataAck | txDataNack | busError => rfl

/-- A decoded event encodes to an event of the same line that decodes to the same instruction. -/
theorem encode_decode_event {c : Config} {sc : Byte} (hok : c.ok = true) (st : EngineState) (full : Bool) :
    ∃ sc' st' full', encode c (decodeEvent c sc st full) = some (.event sc' st' full') ∧
      statusRow c sc' = statusRow c sc ∧ decodeEvent c sc' st' full' = decodeEvent c sc st full := by
  by_cases hr : statusRow c sc = .other
  · have hd (st : EngineState) (full : Bool) : decodeEvent c sc st full = .other sc := by simp only [decodeEvent, hr]
    exact ⟨sc, .idle, false, by rw [hd]; rfl, rfl, by rw [hd, hd]⟩
  · obtain ⟨sc', hsc'⟩ := codeOf_isSome_of_statusRow hr rfl
    have hrow := statusRow_of_codeOf hok hsc'
    obtain ⟨st', full', he, hd⟩ := encode_decodeEvent hr st full
    refine ⟨sc', st', full', ?_, hrow, (decodeEvent_congr hrow hr st' full').trans hd⟩
    rw [he, encodeEvent, hsc', Option.map_some]

/-! ### Register reads (R99, R100) -/

/-- The read row of a register (R231 to R239). -/
def readRow : Reg → Instr
  | .setpoint => .rdSetpoint
  | .mode => .rdMode
  | .p => .rdP
  | .i => .rdI
  | .d => .rdD
  | .f => .rdF
  | .angle => .rdAngle
  | .velocity => .rdVelocity
  | .current => .rdCurrent

theorem decode_read_named {c : Config} {a : Byte} {r : Reg} (h : regOf c a = some r) :
    decode c (.read a) = .ok (readRow r) := by
  cases r <;> simp only [decode, decodeRead, h, readRow]

theorem decode_read_unnamed {c : Config} {a : Byte} (h : regOf c a = none) :
    decode c (.read a) = .ok (.rdUnrecognized a) := by
  simp only [decode, decodeRead, h]

theorem encode_readRow (c : Config) (r : Reg) : encode c (readRow r) = some (.read (selectorOf c r)) := by
  cases r <;> rfl

theorem readRow_wellFormed (c : Config) (r : Reg) : (readRow r).wellFormed c = true := by
  cases r <;> rfl

theorem decode_encode_readRow {c : Config} {e : Encoded} (hok : c.ok = true) (r : Reg)
    (he : encode c (readRow r) = some e) : decode c e = .ok (readRow r) := by
  obtain rfl := Option.some.inj ((encode_readRow c r).symm.trans he)
  exact decode_read_named (regOf_selectorOf hok r)

theorem decode_encode_read {c : Config} {i : Instr} {e : Encoded} (hs : i.space = .selectorRead) (hok : c.ok = true)
    (hwf : i.wellFormed c = true) (he : encode c i = some e) : decode c e = .ok i := by
  cases i with
  | rdSetpoint => exact decode_encode_readRow hok .setpoint he
  | rdMode => exact decode_encode_readRow hok .mode he
  | rdP => exact decode_encode_readRow hok .p he
  | rdI => exact decode_encode_readRow hok .i he
  | rdD => exact decode_encode_readRow hok .d he
  | rdF => exact decode_encode_readRow hok .f he
  | rdAngle => exact decode_encode_readRow hok .angle he
  | rdVelocity => exact decode_encode_readRow hok .velocity he
  | rdCurrent => exact decode_encode_readRow hok .current he
  | rdUnrecognized a => cases he; exact decode_read_unnamed (Option.isNone_iff_eq_none.1 hwf)
  | _ => cases hs

theorem encode_decode_read {c : Config} {a : Byte} {i : Instr} (h : decode c (.read a) = .ok i) :
    i.wellFormed c = true ∧ encode c i = some (.read a) := by
  cases hr : regOf c a with
  | none =>
    obtain rfl := Except.ok.inj ((decode_read_unnamed hr).symm.trans h)
    exact ⟨Option.isNone_iff_eq_none.2 hr, rfl⟩
  | some r =>
    obtain rfl := Except.ok.inj ((decode_read_named hr).symm.trans h)
    exact ⟨readRow_wellFormed c r, by rw [encode_readRow, selectorOf_of_regOf hr]⟩

/-! ### Register writes (R99 to R104, R110 to R114) -/

theorem payloadOk_iff {c : Config} {p : List Byte} :
    payloadOk c p = true ↔ 1 ≤ p.length ∧ p.length ≤ c.capacity := by
  simp [payloadOk]

/-- The decoder takes a register write exactly where a buffer can hold its payload, and then reads it by its selector. -/
theorem decode_write_eq_ok {c : Config} {a : Byte} {p : List Byte} {i : Instr} :
    decode c (.write a p) = .ok i ↔ payloadOk c p = true ∧ decodeWrite c a p = i := by
  rw [payloadOk_iff]
  simp only [decode]
  split
  next hempty => simp [hempty]
  next hne =>
    split
    next hlong => simp [hlong]
    next hfits => simp [Nat.one_le_iff_ne_zero.2 hne, Nat.le_of_not_lt hfits]

/-- The register a PID field is written through (R100). -/
def fieldReg : PidField → Reg
  | .p => .p
  | .i => .i
  | .d => .d
  | .f => .f
  | .setpoint => .setpoint

/-- The write rows of the table under a configuration, each with the selector and the payload it stands for (R100 to R104,
R110 to R114). -/
inductive WriteRow (c : Config) : Byte → List Byte → Instr → Prop where
  | field (x : PidField) (v : F32) :
      WriteRow c (selectorOf c (fieldReg x)) (wireF32 c.floatOrder v) (writeRowOf x v)
  | mode (sp : F32) (m : Mode) : WriteRow c (selectorOf c .mode) (wireF32 c.floatOrder sp ++ [modeEnc c m]) (.wrMode sp m)
  | modeInvalid (sp : F32) {mb : Byte} (h : modeOf c mb = none) :
      WriteRow c (selectorOf c .mode) (wireF32 c.floatOrder sp ++ [mb]) (.wrModeInvalid sp mb)
  | angle (p : List Byte) : WriteRow c (selectorOf c .angle) p (.wrAngle p)
  | velocity (p : List Byte) : WriteRow c (selectorOf c .velocity) p (.wrVelocity p)
  | current (p : List Byte) : WriteRow c (selectorOf c .current) p (.wrCurrent p)
  | unrecognized {a : Byte} (p : List Byte) (h : regOf c a = none) : WriteRow c a p (.wrUnrecognized a p)
  | badLength {a : Byte} {p : List Byte} (h : lengthMismatch c a p = true) : WriteRow c a p (.wrBadLength a p)

theorem lengthMismatch_of_regOf {c : Config} {a : Byte} {r : Reg} (h : regOf c a = some r) (p : List Byte) :
    lengthMismatch c a p = true ↔ ∃ n, expectedLength r = some n ∧ p.length ≠ n := by
  rw [lengthMismatch, h, Option.bind_some]
  cases expectedLength r <;> simp

/-- The encoder writes a row's selector and payload. -/
theorem WriteRow.encode_eq {c : Config} {a : Byte} {p : List Byte} {i : Instr} (h : WriteRow c a p i) :
    encode c i = some (.write a p) := by
  cases h with
  | field x v => cases x <;> rfl
  | mode | modeInvalid | angle | velocity | current | unrecognized | badLength => rfl

/-- A row is well-formed exactly where a buffer can hold its payload. -/
theorem WriteRow.wellFormed_eq {c : Config} {a : Byte} {p : List Byte} {i : Instr} (h : WriteRow c a p i) :
    i.wellFormed c = payloadOk c p := by
  cases h with
  | field x v => cases x <;> rfl
  | mode sp m => rfl
  | modeInvalid sp hm => simp [Instr.wellFormed, hm, payloadOk, wireF32_length]
  | angle | velocity | current => rfl
  | unrecognized p hr => simp [Instr.wellFormed, hr]
  | badLength hl => simp [Instr.wellFormed, hl]

/-- Every well-formed write instruction is a row of the table. -/
theorem writeRow_of_wellFormed {c : Config} {i : Instr} (hs : i.space = .selectorWrite) (hwf : i.wellFormed c = true) :
    ∃ a p, WriteRow c a p i := by
  cases i with
  | wrP v => exact ⟨_, _, .field .p v⟩
  | wrI v => exact ⟨_, _, .field .i v⟩
  | wrD v => exact ⟨_, _, .field .d v⟩
  | wrF v => exact ⟨_, _, .field .f v⟩
  | wrSetpoint v => exact ⟨_, _, .field .setpoint v⟩
  | wrMode sp m => exact ⟨_, _, .mode sp m⟩
  | wrAngle p => exact ⟨_, _, .angle p⟩
  | wrVelocity p => exact ⟨_, _, .velocity p⟩
  | wrCurrent p => exact ⟨_, _, .current p⟩
  | wrUnrecognized a p => exact ⟨_, _, .unrecognized p (Option.isNone_iff_eq_none.1 (Bool.and_elim_left hwf))⟩
  | wrBadLength a p => exact ⟨_, _, .badLength (Bool.and_elim_left hwf)⟩
  | wrModeInvalid sp mb => exact ⟨_, _, .modeInvalid sp (Option.isNone_iff_eq_none.1 (Bool.and_elim_left hwf))⟩
  | _ => cases hs

/-! ### What the decoder reads from a register write -/

/-- The selector of a PID field is decoded by the length of the payload (R101, R212). -/
theorem decodeWrite_field {c : Config} {a : Byte} {x : PidField} (h : regOf c a = some (fieldReg x)) (p : List Byte) :
    decodeWrite c a p = decodeFloatWrite c a p (writeRowOf x) := by
  rw [decodeWrite, h]
  cases x <;> rfl

theorem decodeWrite_mode {c : Config} {a : Byte} (h : regOf c a = some .mode) (p : List Byte) :
    decodeWrite c a p = decodeModeWrite c a p := by
  simp only [decodeWrite, h]

theorem decodeFloatWrite_wireF32 (c : Config) (a : Byte) (v : F32) (row : F32 → Instr) :
    decodeFloatWrite c a (wireF32 c.floatOrder v) row = row v := by
  obtain ⟨w0, w1, w2, w3, hw, hv⟩ := wireF32_eq_bytes c.floatOrder v
  rw [hw, ← hv]
  rfl

theorem decodeFloatWrite_otherLength {c : Config} {a : Byte} {p : List Byte} (row : F32 → Instr) (h : p.length ≠ 4) :
    decodeFloatWrite c a p row = .wrBadLength a p := by
  unfold decodeFloatWrite
  split
  · exact absurd rfl h
  · rfl

theorem decodeModeWrite_wireF32 (c : Config) (a : Byte) (sp : F32) (mb : Byte) :
    decodeModeWrite c a (wireF32 c.floatOrder sp ++ [mb]) =
      match modeOf c mb with
      | some m => .wrMode sp m
      | none => .wrModeInvalid sp mb := by
  obtain ⟨w0, w1, w2, w3, hw, hv⟩ := wireF32_eq_bytes c.floatOrder sp
  rw [hw, ← hv]
  rfl

theorem decodeModeWrite_otherLength {c : Config} {a : Byte} {p : List Byte} (h : p.length ≠ 5) :
    decodeModeWrite c a p = .wrBadLength a p := by
  unfold decodeModeWrite
  split
  · exact absurd rfl h
  · rfl

/-- A payload of a length the register does not expect is decoded as the wrong length (R212). -/
theorem decodeWrite_badLength {c : Config} {a : Byte} {p : List Byte} (h : lengthMismatch c a p = true) :
    decodeWrite c a p = .wrBadLength a p := by
  cases hr : regOf c a with
  | none => simp [lengthMismatch, hr] at h
  | some r =>
    obtain ⟨n, hn, hp⟩ := (lengthMismatch_of_regOf hr p).1 h
    cases r with
    | setpoint | p | i | d | f =>
      cases hn
      simp only [decodeWrite, hr]
      exact decodeFloatWrite_otherLength _ hp
    | mode =>
      cases hn
      exact (decodeWrite_mode hr p).trans (decodeModeWrite_otherLength hp)
    | angle | velocity | current => cases hn

/-- The decoder reads a row of the table from the row's selector and payload. -/
theorem WriteRow.decodeWrite_eq {c : Config} {a : Byte} {p : List Byte} {i : Instr} (hok : c.ok = true)
    (h : WriteRow c a p i) : decodeWrite c a p = i := by
  have named := regOf_selectorOf hok
  cases h with
  | field x v => rw [decodeWrite_field (named (fieldReg x)), decodeFloatWrite_wireF32]
  | mode sp m => rw [decodeWrite_mode (named .mode), decodeModeWrite_wireF32, modeOf_modeEnc hok]
  | modeInvalid sp hm => rw [decodeWrite_mode (named .mode), decodeModeWrite_wireF32, hm]
  | angle | velocity | current => simp only [decodeWrite, named]
  | unrecognized p hr => simp only [decodeWrite, hr]
  | badLength hl => exact decodeWrite_badLength hl

/-- What the decoder reads on the selector of a PID field is a row of the table, whatever the payload. -/
theorem writeRow_of_fieldReg {c : Config} {a : Byte} {x : PidField} (h : regOf c a = some (fieldReg x)) (p : List Byte) :
    WriteRow c a p (decodeWrite c a p) := by
  rw [decodeWrite_field h]
  by_cases hp : p.length = 4
  · obtain ⟨w0, w1, w2, w3, rfl⟩ := length_four hp
    rw [← wireF32_decodeF32 c.floatOrder w0 w1 w2 w3, decodeFloatWrite_wireF32, ← selectorOf_of_regOf h]
    exact .field x _
  · rw [decodeFloatWrite_otherLength _ hp]
    exact .badLength ((lengthMismatch_of_regOf h p).2 ⟨4, by cases x <;> rfl, hp⟩)

theorem writeRow_of_modeReg {c : Config} {a : Byte} (h : regOf c a = some .mode) (p : List Byte) :
    WriteRow c a p (decodeWrite c a p) := by
  rw [decodeWrite_mode h]
  by_cases hp : p.length = 5
  · obtain ⟨w0, w1, w2, w3, mb, rfl⟩ := length_five hp
    rw [show [w0, w1, w2, w3, mb] = [w0, w1, w2, w3] ++ [mb] from rfl, ← wireF32_decodeF32 c.floatOrder w0 w1 w2 w3,
      decodeModeWrite_wireF32, ← selectorOf_of_regOf h]
    cases hm : modeOf c mb with
    | none => exact .modeInvalid _ hm
    | some m =>
      rw [← modeEnc_of_modeOf hm]
      exact .mode _ m
  · rw [decodeModeWrite_otherLength hp]
    exact .badLength ((lengthMismatch_of_regOf h p).2 ⟨5, rfl, hp⟩)

/-- Whatever the selector and the payload, the decoder reads a row of the table that stands for them. -/
theorem writeRow_decodeWrite (c : Config) (a : Byte) (p : List Byte) : WriteRow c a p (decodeWrite c a p) := by
  cases hr : regOf c a with
  | none => simp only [decodeWrite, hr]; exact .unrecognized p hr
  | some r =>
    have ha := selectorOf_of_regOf hr
    cases r with
    | p => exact writeRow_of_fieldReg (x := .p) hr p
    | i => exact writeRow_of_fieldReg (x := .i) hr p
    | d => exact writeRow_of_fieldReg (x := .d) hr p
    | f => exact writeRow_of_fieldReg (x := .f) hr p
    | setpoint => exact writeRow_of_fieldReg (x := .setpoint) hr p
    | mode => exact writeRow_of_modeReg hr p
    | angle => simp only [decodeWrite, hr]; exact ha ▸ .angle p
    | velocity => simp only [decodeWrite, hr]; exact ha ▸ .velocity p
    | current => simp only [decodeWrite, hr]; exact ha ▸ .current p

theorem decode_encode_write {c : Config} {i : Instr} {e : Encoded} (hs : i.space = .selectorWrite) (hok : c.ok = true)
    (hwf : i.wellFormed c = true) (he : encode c i = some e) : decode c e = .ok i := by
  obtain ⟨a, p, hrow⟩ := writeRow_of_wellFormed hs hwf
  obtain rfl := Option.some.inj (hrow.encode_eq.symm.trans he)
  exact decode_write_eq_ok.2 ⟨hrow.wellFormed_eq.symm.trans hwf, hrow.decodeWrite_eq hok⟩

theorem encode_decode_write {c : Config} {a : Byte} {p : List Byte} {i : Instr} (h : decode c (.write a p) = .ok i) :
    i.wellFormed c = true ∧ encode c i = some (.write a p) := by
  obtain ⟨hp, rfl⟩ := decode_write_eq_ok.1 h
  have hrow := writeRow_decodeWrite c a p
  exact ⟨hrow.wellFormed_eq.trans hp, hrow.encode_eq⟩

/-! ### The decoder and the encoder -/

/-- Settles O54: by the kind of the row. -/
theorem decodeOfEncode : Obligations.DecodeOfEncode := by
  intro c i e hok hwf he
  cases hs : i.space with
  | statusCode => exact decode_encode_event hs hok hwf he
  | selectorWrite => exact decode_encode_write hs hok hwf he
  | selectorRead => exact decode_encode_read hs hok hwf he
  | call =>
    obtain rfl := Option.some.inj ((encode_of_call hs).symm.trans he)
    exact decode_call c hs

/-- Settles O55: by the kind of what is decoded. -/
theorem encodeOfDecode : Obligations.EncodeOfDecode := by
  intro c i hok
  refine ⟨fun a p h => encode_decode_write h, fun a h => encode_decode_read h, fun j h => ?call,
    fun sc st full h => ?event⟩
  case call =>
    obtain rfl := eq_of_decode_call h
    exact encode_of_call (space_of_decode_call h)
  case event =>
    obtain rfl := Except.ok.inj h
    obtain ⟨sc', st', full', he, hrow, hd⟩ := encode_decode_event (sc := sc) hok st full
    exact ⟨decodeEvent_wellFormed c sc st full, sc', st', full', he, hrow, congrArg Except.ok hd⟩

/-- Settles O56: the decoder runs on each of the nine words. -/
theorem writtenOutWordsDecode : Obligations.WrittenOutWordsDecode :=
  ⟨rfl, rfl, rfl, rfl, rfl, rfl, rfl, rfl, rfl⟩

/-! ### Requests that encode no instruction (log 23) -/

theorem decode_noPayload (c : Config) (a : Byte) : decode c (.write a []) = .error .noPayload := rfl

theorem decode_payloadTooLong {c : Config} (a : Byte) {p : List Byte} (h : c.capacity < p.length) :
    decode c (.write a p) = .error .payloadTooLong := by
  simp only [decode, if_neg (Nat.ne_zero_of_lt h), if_pos h]

/-- A step whose oldest request is not held back and is rejected by the decoder refuses with the decoder's reason. -/
theorem step_eq_refused {s : State} {r : Request} {rest : List Request} {e : DecodeError} (hok : s.cfg.ok = true)
    (hp : s.pending = r :: rest) (hm : r.isInterrupt = false) (hd : decode s.cfg (fetch s r) = .error e) :
    step s = .refused (.undecodable e) := by
  simp [step, hok, hp, hm, hd]

/-- The one call the mask holds back is `serve`, which is a row that is called. -/
theorem isInterrupt_of_not_call {i : Instr} (h : i.space ≠ .call) : (Request.call i).isInterrupt = false := by
  cases i with
  | serve sc => exact absurd rfl h
  | _ => rfl

/-- Settles O53: none of the three requests is held back, and the decoder names why it rejects each. -/
theorem stepRefusesNonInstructions : Obligations.StepRefusesNonInstructions := by
  intro s rest hok
  refine ⟨fun i hi hp => ?call, fun hb hp => ?empty, fun hl hp => ?tooLong⟩
  case call => exact step_eq_refused hok hp (isInterrupt_of_not_call hi) (decode_notACall s.cfg hi)
  case empty => exact step_eq_refused hok hp rfl (by rw [fetch, hb, decode_noPayload])
  case tooLong => exact step_eq_refused hok hp rfl (decode_payloadTooLong s.address hl)

end Sys2Proof.Machine

/-! ## The events a transaction produces

What serving each event of a write does to the engine (R162 to R166, R169), then the events from the first payload byte
on, by induction on the payload with the places still free in inbound; from them the traces of R98, R122 and of the
general call. -/

namespace Sys2Proof.Machine

/-! ### The codes a configuration reports -/

/-- The controller reports the line `r` by the code `sc`, and the block reads that code as the line (R96). -/
structure Reports (c : Config) (r : StatusRow) (sc : Byte) : Prop where
  codeOf_eq : codeOf c r = some sc
  statusRow_eq : statusRow c sc = r

theorem reports_default {sc : Byte} {r : StatusRow} (hm : (sc, r) ∈ Config.defaultStatusMap) :
    Reports Config.default r sc := by
  have found : ∀ e ∈ Config.defaultStatusMap, codeOf Config.default e.2 = some e.1 := by decide
  have hcode := found _ hm
  exact ⟨hcode, statusRow_of_codeOf rfl hcode⟩

/-- Every pair of the default table is reported so, whatever the other parameters are. -/
theorem reports_of_defaultStatusMap {c : Config} (hc : c.statusMap = Config.defaultStatusMap) {sc : Byte} {r : StatusRow}
    (hm : (sc, r) ∈ Config.defaultStatusMap := by decide) : Reports c r sc := by
  have hcode : codeOf c r = codeOf Config.default r := by rw [codeOf, hc]; rfl
  have hrow : statusRow c sc = statusRow Config.default sc := by rw [statusRow, hc]; rfl
  exact ⟨hcode.trans (reports_default hm).codeOf_eq, hrow.trans (reports_default hm).statusRow_eq⟩

theorem Reports.eventOf_eq {c : Config} {r : StatusRow} {sc : Byte} (h : Reports c r sc) (d : Byte) :
    eventOf c r d = some (.event sc d) := by
  rw [eventOf, h.codeOf_eq, Option.map_some]

theorem Reports.statusClass_eq {c : Config} {r : StatusRow} {sc : Byte} (h : Reports c r sc) :
    statusClass c sc = classOf r := by
  rw [statusClass, h.statusRow_eq]

/-- The lines a write is reported on, with their codes: `start` when the device is addressed, `data` for a byte that is
acknowledged (R162 to R166). -/
structure WriteLines (c : Config) (start data : StatusRow) (scStart scData : Byte) : Prop where
  startReports : Reports c start scStart
  addressed : classOf start = .slaW ∨ classOf start = .gcW
  dataReports : Reports c data scData
  acknowledged : classOf data = .rxDataAck

theorem writeLines_own {c : Config} (hc : c.statusMap = Config.defaultStatusMap) :
    WriteLines c .slaW .rxDataAck 0x60#8 0x80#8 :=
  ⟨reports_of_defaultStatusMap hc, .inl rfl, reports_of_defaultStatusMap hc, rfl⟩

theorem writeLines_generalCall {c : Config} (hc : c.statusMap = Config.defaultStatusMap) :
    WriteLines c .gcW .rxDataAckGc 0x70#8 0x90#8 :=
  ⟨reports_of_defaultStatusMap hc, .inr rfl, reports_of_defaultStatusMap hc, rfl⟩

/-! ### `serve` on the events of a write, by the class of the status code (R161) -/

section
variable {s : State} {sc : Byte}

theorem serve_start (hc : statusClass s.cfg sc = .slaW ∨ statusClass s.cfg sc = .gcW) :
    serve sc s = .ok (evStartWrite s) := by
  obtain hc | hc := hc <;> simp only [serve, hc]

theorem serve_selector (hc : statusClass s.cfg sc = .rxDataAck) (hs : s.state = .addressing) :
    serve sc s = .ok (evSelector s) := by
  simp only [serve, hc, hs]

theorem serve_payload (hc : statusClass s.cfg sc = .rxDataAck) (hs : s.state = .writing)
    (hroom : s.inbound.length ≠ s.cfg.capacity) : serve sc s = evPayload s := by
  simp [serve, hc, hs, bufFull, hroom]

theorem serve_overflow (hc : statusClass s.cfg sc = .rxDataAck) (hs : s.state = .writing)
    (hfull : s.inbound.length = s.cfg.capacity) : serve sc s = .ok (evOverflow s) := by
  simp [serve, hc, hs, bufFull, hfull]

theorem serve_stop (hc : statusClass s.cfg sc = .stopOrRestart) : serve sc s = evStop s := by
  simp only [serve, hc]

end

/-- Overflow refuses the next byte, under either policy (R166). -/
theorem evOverflow_ackEn (s : State) : (evOverflow s).ackEn = false := rfl

theorem afterEvent_of_serve {s t : State} {sc d : Byte} (h : serve sc (s.interruptEntry d) = .ok t) :
    afterEvent s (.event sc d) = some t := by
  rw [afterEvent, h]
  rfl

/-! ### The engine while a write is received -/

/-- The engine takes payload bytes, the controller acknowledges the next one, and inbound has `free` places left. -/
structure Receiving (s : State) (free : Nat) : Prop where
  writing : s.state = .writing
  ack : s.ackEn = true
  room : s.inbound.length + free = s.cfg.capacity

/-- Addressed, and the selector captured: the whole of inbound is free. -/
theorem receiving_of_selector {s : State} {start data : StatusRow} {scStart scData : Byte}
    (h : WriteLines s.cfg start data scStart scData) (a sel : Byte) :
    ∃ t u, afterEvent s (.event scStart a) = some t ∧ t.cfg = s.cfg ∧ t.ackEn = true ∧
      afterEvent t (.event scData sel) = some u ∧ u.cfg = s.cfg ∧ u.inbound = [] ∧ Receiving u s.cfg.capacity := by
  have hstart : statusClass s.cfg scStart = .slaW ∨ statusClass s.cfg scStart = .gcW := by
    rw [h.startReports.statusClass_eq]
    exact h.addressed
  have hdata : statusClass s.cfg scData = .rxDataAck := h.dataReports.statusClass_eq.trans h.acknowledged
  exact ⟨evStartWrite (s.interruptEntry a), _, afterEvent_of_serve (serve_start hstart), rfl, rfl,
    afterEvent_of_serve (serve_selector (s := (evStartWrite (s.interruptEntry a)).interruptEntry sel) hdata rfl),
    rfl, rfl, rfl, rfl, Nat.zero_add _⟩

section
variable {s : State} {data : StatusRow} {sc : Byte}

/-- A byte that finds room is stored and the next is acknowledged (R165). -/
theorem Receiving.stored {free : Nat} (h : Receiving s (free + 1)) (hdata : Reports s.cfg data sc)
    (hack : classOf data = .rxDataAck) (b : Byte) :
    ∃ t, afterEvent s (.event sc b) = some t ∧ t.cfg = s.cfg ∧ Receiving t free := by
  have hroom := h.room
  have hne : (s.interruptEntry b).inbound.length ≠ (s.interruptEntry b).cfg.capacity := by
    rw [State.interruptEntry_inbound, State.interruptEntry_cfg]
    omega
  have hserve := serve_payload (s := s.interruptEntry b) (hdata.statusClass_eq.trans hack) h.writing hne
  refine ⟨_, afterEvent_of_serve (hserve.trans (evPayload_ok hne)), rfl, h.writing, rfl, ?_⟩
  rw [State.serveReturn_inbound, State.setBuf_inbound_inbound, List.length_append, List.length_singleton]
  exact (Nat.add_right_comm _ _ _).trans hroom

/-- A byte that finds none is thrown away and the next is not acknowledged (R166). -/
theorem Receiving.overflowed (h : Receiving s 0) (hdata : Reports s.cfg data sc) (hack : classOf data = .rxDataAck)
    (b : Byte) : ∃ t, afterEvent s (.event sc b) = some t ∧ t.cfg = s.cfg ∧ t.ackEn = false :=
  ⟨_, afterEvent_of_serve (serve_overflow (hdata.statusClass_eq.trans hack) h.writing h.room), evOverflow_cfg _,
    evOverflow_ackEn _⟩

end

/-! ### The events of a payload (R98) -/

section
variable {data nack : StatusRow} {s : State} {sc : Byte}

theorem receiveEvents_nil (hstop : Reports s.cfg .stopOrRestart sc) :
    receiveEvents data nack [] s = some [.event sc 0#8] := by
  rw [receiveEvents, hstop.eventOf_eq]
  rfl

/-- A byte received while `ack_en` is 1 is reported on the line `data` and served (R27). -/
theorem receiveEvents_acknowledged {t : State} {b : Byte} (hack : s.ackEn = true) (hdata : Reports s.cfg data sc)
    (ht : afterEvent s (.event sc b) = some t) (bs : List Byte) :
    receiveEvents data nack (b :: bs) s = (receiveEvents data nack bs t).map (.event sc b :: ·) := by
  rw [receiveEvents, if_pos hack, hdata.eventOf_eq]
  simp only [Option.bind_eq_bind, Option.bind_some, ht]
  cases receiveEvents data nack bs t <;> rfl

/-- One received while it is 0 is reported on the line `nack`, and ends the trace. -/
theorem receiveEvents_refused (hack : s.ackEn = false) (hnack : Reports s.cfg nack sc) (b : Byte) (bs : List Byte) :
    receiveEvents data nack (b :: bs) s = some [.event sc b] := by
  rw [receiveEvents, hack, hnack.eventOf_eq]
  rfl

end

/-- A payload of at most one byte more than there is room for is acknowledged byte by byte, and the controller
acknowledges the byte after it exactly where all of it was stored. -/
theorem receiveEvents_payload {data nack : StatusRow} {s : State} {sc : Byte} {free : Nat} {bytes : List Byte}
    (hs : Receiving s free) (hdata : Reports s.cfg data sc) (hclass : classOf data = .rxDataAck)
    (hlen : bytes.length ≤ free + 1) :
    ∃ t, t.cfg = s.cfg ∧ t.ackEn = decide (bytes.length ≤ free) ∧
      ∀ rest, receiveEvents data nack (bytes ++ rest) s =
        (receiveEvents data nack rest t).map (bytes.map (.event sc) ++ ·) := by
  induction bytes generalizing s free with
  | nil => exact ⟨s, rfl, by simp [hs.ack], fun rest => by simp⟩
  | cons b bs ih =>
    cases free with
    | zero =>
      obtain rfl : bs = [] := List.length_eq_zero_iff.1 (by simpa using hlen)
      obtain ⟨t, ht, hcfg, hack⟩ := hs.overflowed hdata hclass b
      exact ⟨t, hcfg, by simp [hack], receiveEvents_acknowledged hs.ack hdata ht⟩
    | succ free =>
      obtain ⟨t, ht, hcfg, hrecv⟩ := hs.stored hdata hclass b
      obtain ⟨u, hcfg', hack, hu⟩ := ih hrecv (hcfg ▸ hdata) (by simpa using hlen)
      refine ⟨u, hcfg'.trans hcfg, by simp [hack], fun rest => ?_⟩
      rw [List.cons_append, receiveEvents_acknowledged hs.ack hdata ht, hu, Option.map_map]
      rfl

/-! ### The events of a write (R98) -/

section
variable {s : State} {start data nack : StatusRow} {scStart scData : Byte}

/-- A write is addressed, its selector captured, and its payload received. -/
theorem writeEvents_payload (h : WriteLines s.cfg start data scStart scData) (a sel : Byte) {bytes : List Byte}
    (hlen : bytes.length ≤ s.cfg.capacity + 1) :
    ∃ t, t.cfg = s.cfg ∧ t.ackEn = decide (bytes.length ≤ s.cfg.capacity) ∧
      ∀ rest, writeEvents start data nack a (sel :: (bytes ++ rest)) s =
        (receiveEvents data nack rest t).map
          (.event scStart a :: .event scData sel :: bytes.map (.event scData) ++ ·) := by
  obtain ⟨t, u, ht, htcfg, htack, hu, hucfg, -, hrecv⟩ := receiving_of_selector h a sel
  obtain ⟨v, hvcfg, hvack, hv⟩ := receiveEvents_payload hrecv (hucfg ▸ h.dataReports) h.acknowledged hlen
  refine ⟨v, hvcfg.trans hucfg, hvack, fun rest => ?_⟩
  rw [writeEvents, h.startReports.eventOf_eq]
  simp only [Option.bind_eq_bind, Option.bind_some, ht]
  rw [receiveEvents_acknowledged htack (htcfg ▸ h.dataReports) hu, hv]
  cases receiveEvents data nack rest v <;> rfl

/-- A write of at most one byte more than inbound holds is acknowledged to its end. -/
theorem writeEvents_stopped {scStop : Byte} (h : WriteLines s.cfg start data scStart scData)
    (hstop : Reports s.cfg .stopOrRestart scStop) (a sel : Byte) {bytes : List Byte}
    (hlen : bytes.length ≤ s.cfg.capacity + 1) :
    writeEvents start data nack a (sel :: bytes) s =
      some (.event scStart a :: .event scData sel :: bytes.map (.event scData) ++ [.event scStop 0#8]) := by
  obtain ⟨t, hcfg, -, ht⟩ := writeEvents_payload (nack := nack) h a sel hlen
  have htrace := ht []
  rwa [List.append_nil, receiveEvents_nil (hcfg ▸ hstop)] at htrace

/-- The byte after the one that overflows inbound is not acknowledged, and ends the trace. -/
theorem writeEvents_refused {scNack : Byte} (h : WriteLines s.cfg start data scStart scData)
    (hnack : Reports s.cfg nack scNack) (a sel b : Byte) {bytes : List Byte} (rest : List Byte)
    (hlen : bytes.length = s.cfg.capacity + 1) :
    writeEvents start data nack a (sel :: (bytes ++ b :: rest)) s =
      some (.event scStart a :: .event scData sel :: bytes.map (.event scData) ++ [.event scNack b]) := by
  obtain ⟨t, hcfg, hoff, ht⟩ := writeEvents_payload (nack := nack) h a sel hlen.le
  rw [ht, receiveEvents_refused (by simp [hoff, hlen]) (hcfg ▸ hnack)]
  rfl

end

/-! ### The events of a transaction -/

section
variable {s : State}

theorem busEvents_unanswered (hack : s.ackEn = false) (t : Transaction) : busEvents s t = some [] := by
  simp [busEvents, hack]

theorem writeReg_eq (hack : s.ackEn = true) (sel : Byte) (bytes : List Byte) :
    writeReg s sel bytes =
      writeEvents .slaW .rxDataAck .rxDataNack (addressByte s.cfg.ownAddr false) (sel :: bytes) s := by
  simp [writeReg, busEvents, hack, addressedForWrite]

theorem busEvents_generalCall (hack : s.ackEn = true) (hown : s.cfg.ownAddr ≠ 0#7) (hgc : s.cfg.gcEnable = true)
    (sel : Byte) (bytes : List Byte) :
    busEvents s (.write 0#7 (some sel) bytes) =
      writeEvents .gcW .rxDataAckGc .gcDataNack (addressByte 0#7 false) (sel :: bytes) s := by
  simp [busEvents, hack, addressedForWrite, hown.symm, hgc]

theorem busEvents_generalCall_disabled (hack : s.ackEn = true) (hown : s.cfg.ownAddr ≠ 0#7)
    (hgc : s.cfg.gcEnable = false) (sel : Byte) (bytes : List Byte) :
    busEvents s (.write 0#7 (some sel) bytes) = some [] := by
  simp [busEvents, hack, addressedForWrite, hown.symm, hgc]

/-- A read of at least one byte: an acknowledge for every byte but the last. -/
theorem busEvents_read_succ {scStart scAck scNack : Byte} (hack : s.ackEn = true) (hstart : Reports s.cfg .slaR scStart)
    (hdata : Reports s.cfg .txDataAck scAck) (hlast : Reports s.cfg .txDataNack scNack) (k : Nat) :
    busEvents s (.read s.cfg.ownAddr (k + 1)) =
      some (.event scStart (addressByte s.cfg.ownAddr true) :: List.replicate k (.event scAck 0#8) ++
        [.event scNack 0#8]) := by
  simp [busEvents, hack, readEvents, hstart.eventOf_eq, hdata.eventOf_eq, hlast.eventOf_eq]

end

/-- The end of a write that has delivered no payload (R169). -/
theorem afterEvent_stop_of_empty {s : State} {sc : Byte} (hstop : Reports s.cfg .stopOrRestart sc)
    (hempty : s.inbound = []) (d : Byte) :
    ∃ t, afterEvent s (.event sc d) = some t ∧ t.cfg = s.cfg ∧ t.ackEn = true := by
  have hserve := (serve_stop (s := s.interruptEntry d) hstop.statusClass_eq).trans (evStop_nil hempty)
  exact ⟨_, afterEvent_of_serve hserve, rfl, rfl⟩

/-- After the events of a selection, a write of the selector alone, the device answers again. -/
theorem afterEvents_selection {s : State} {start data : StatusRow} {scStart scData scStop : Byte}
    (h : WriteLines s.cfg start data scStart scData) (hstop : Reports s.cfg .stopOrRestart scStop) (a sel d : Byte) :
    ∃ t, afterEvents s [.event scStart a, .event scData sel, .event scStop d] = some t ∧ t.cfg = s.cfg ∧
      t.ackEn = true := by
  obtain ⟨t, u, ht, -, -, hu, hcfg, hempty, -⟩ := receiving_of_selector h a sel
  obtain ⟨v, hv, hvcfg, hvack⟩ := afterEvent_stop_of_empty (hcfg ▸ hstop) hempty d
  refine ⟨v, ?_, hvcfg.trans hcfg, hvack⟩
  simp [afterEvents, ht, hu, hv]

/-- A register read is the selection and then the read, which finds the state the selection leaves (R93). -/
theorem readRegister_eq_append {s t : State} {sel : Byte} {k : Nat} {select read : List Request}
    (hselect : writeReg s sel [] = some select) (ht : afterEvents s select = some t)
    (hread : busEvents t (.read s.cfg.ownAddr k) = some read) : readRegister s sel k = some (select ++ read) := by
  rw [writeReg] at hselect
  simp [readRegister, hselect, ht, hread]

/-- Settles O57: the write is acknowledged to its end; the read finds the device answering after the selection. -/
theorem transactionsProduceTraces : Obligations.TransactionsProduceTraces := by
  intro s sel bytes k hmap hack
  have hlines := writeLines_own hmap
  have hstop : Reports s.cfg .stopOrRestart 0xA0#8 := reports_of_defaultStatusMap hmap
  have written {p : List Byte} (hlen : p.length ≤ s.cfg.capacity + 1) :=
    (writeReg_eq hack sel p).trans (writeEvents_stopped hlines hstop _ sel hlen)
  refine ⟨fun hlen => ⟨_, _, written hlen⟩, ?read⟩
  case read =>
    have hfirst : Reports s.cfg .slaR 0xA8#8 := reports_of_defaultStatusMap hmap
    have hnext : Reports s.cfg .txDataAck 0xB8#8 := reports_of_defaultStatusMap hmap
    have hlast : Reports s.cfg .txDataNack 0xC0#8 := reports_of_defaultStatusMap hmap
    obtain ⟨t, ht, hcfg, htack⟩ := afterEvents_selection hlines hstop (addressByte s.cfg.ownAddr false) sel 0#8
    have hread := busEvents_read_succ htack (hcfg ▸ hfirst) (hcfg ▸ hnext) (hcfg ▸ hlast) k
    rw [hcfg] at hread
    have htrace := readRegister_eq_append (written (Nat.zero_le _)) ht hread
    exact ⟨_, _, _, _, _, htrace⟩

/-- Settles O59: the controller does not acknowledge the byte after the one that overflows, and a device whose `ack_en`
is 0 answers neither a write nor a read. -/
theorem unacknowledgedByteEndsTrace : Obligations.UnacknowledgedByteEndsTrace := by
  intro s sel b bytes rest k hmap
  have hnack : Reports s.cfg .rxDataNack 0x88#8 := reports_of_defaultStatusMap hmap
  refine ⟨fun hack hlen => ?refused, fun hack => ⟨busEvents_unanswered hack _, ?unread⟩⟩
  case refused =>
    exact ⟨_, (writeReg_eq hack sel _).trans (writeEvents_refused (writeLines_own hmap) hnack _ sel b rest hlen)⟩
  case unread => exact readRegister_eq_append (busEvents_unanswered hack _) rfl (busEvents_unanswered hack _)

/-- Settles O60: a general call is received like any write, on lines of its own. -/
theorem generalCallTraces : Obligations.GeneralCallTraces := by
  intro s sel b bytes rest hmap hack hown
  have hlines := writeLines_generalCall hmap
  have hstop : Reports s.cfg .stopOrRestart 0xA0#8 := reports_of_defaultStatusMap hmap
  have hnack : Reports s.cfg .gcDataNack 0x98#8 := reports_of_defaultStatusMap hmap
  refine ⟨fun hgc hlen => ?stopped, fun hgc hlen => ?refused, fun hgc => ?disabled⟩
  case stopped =>
    exact ⟨_, _, (busEvents_generalCall hack hown hgc sel _).trans (writeEvents_stopped hlines hstop _ sel hlen)⟩
  case refused =>
    exact ⟨_, (busEvents_generalCall hack hown hgc sel _).trans (writeEvents_refused hlines hnack _ sel b rest hlen)⟩
  case disabled => exact busEvents_generalCall_disabled hack hown hgc sel bytes

end Sys2Proof.Machine

/-! ## The ring buffers

What each operation on a buffer of the engine answers (R131 to R140), and that no step, of whatever instruction, overfills a
buffer or leaves the interrupt mask set (R130, R37). -/

namespace Sys2Proof.Machine

open Sys2Proof.Claims

/-! ### The statements' buffers are the model's -/

theorem bufOf_eq_getBuf (s : State) (b : Buf) : bufOf s b = s.getBuf b := by
  cases b <;> rfl

theorem withBuf_eq_setBuf (s : State) (b : Buf) (x : List Byte) : withBuf s b x = s.setBuf b x := by
  cases b <;> rfl

theorem gives_eq_returning (s : State) (v : Value) : gives s v = s.returning v := rfl

theorem bufEmpty_eq_decide (b : List Byte) : bufEmpty b = decide (b = []) := by
  rw [Bool.eq_iff_iff, bufEmpty_iff, decide_eq_true_iff]

/-! ### Operations that put a content back -/

@[simp] theorem finish_map_ok {α : Type} (x : α) (f : α → State) : finish ((Except.ok x).map f) = .next (f x) := rfl

@[simp] theorem finish_map_error {α : Type} (e : Fault) (f : α → State) :
    finish ((Except.error e : Except Fault α).map f) = .fault e := rfl

/-- The next state of such an operation comes from a content it succeeded with. -/
theorem finish_map_eq_next {α : Type} {r : Except Fault α} {f : α → State} {t : State} (h : finish (r.map f) = .next t) :
    ∃ x, r = .ok x ∧ t = f x := by
  cases r with
  | error e => cases h
  | ok x => cases h; exact ⟨x, rfl, rfl⟩

theorem exec_rbPushBack (b : Buf) (v : Byte) (s : State) :
    exec (.rbPushBack b v) s = finish ((pushBack s.cfg.capacity (s.getBuf b) v).map (s.setBuf b)) := rfl

theorem exec_rbPushFront (b : Buf) (v : Byte) (s : State) :
    exec (.rbPushFront b v) s = finish ((pushFront s.cfg.capacity (s.getBuf b) v).map (s.setBuf b)) := rfl

theorem exec_rbPopFront (b : Buf) (s : State) :
    exec (.rbPopFront b) s = finish ((popFront (s.getBuf b)).map fun r => (s.setBuf b r.2).returning (.byte r.1)) := rfl

theorem exec_rbPopBack (b : Buf) (s : State) :
    exec (.rbPopBack b) s = finish ((popBack (s.getBuf b)).map fun r => (s.setBuf b r.2).returning (.byte r.1)) := rfl

/-- Settles O1: the three predicates read the content and only return. -/
theorem bufferPredicatesReport : Obligations.BufferPredicatesReport := by
  intro b s
  rw [bufOf_eq_getBuf, ← bufFull_eq_decide, ← bufEmpty_eq_decide]
  exact ⟨rfl, rfl, rfl⟩

/-- Settles O2: a buffer of `CAPACITY` bytes, and no other, is full. -/
theorem pushAtEitherEnd : Obligations.PushAtEitherEnd := by
  intro b v s
  simp only [bufOf_eq_getBuf, withBuf_eq_setBuf, exec_rbPushBack, exec_rbPushFront]
  constructor
  · intro hroom
    rw [pushBack_ok v hroom, pushFront_ok v hroom]
    exact ⟨rfl, rfl⟩
  · intro hfull
    rw [pushBack_full v hfull, pushFront_full v hfull]
    exact ⟨rfl, rfl⟩

/-- Settles O3: the content is a first byte and a rest, a rest and a last byte, or empty. -/
theorem popAtEitherEnd : Obligations.PopAtEitherEnd := by
  intro b s
  simp only [bufOf_eq_getBuf, withBuf_eq_setBuf, gives_eq_returning, exec_rbPopFront, exec_rbPopBack]
  refine ⟨fun v rest hb => ?front, fun v rest hb => ?back, fun hb => ?empty⟩
  case front => rw [hb, popFront_cons, finish_map_ok]
  case back => rw [hb, popBack_concat, finish_map_ok]
  case empty => rw [hb]; exact ⟨rfl, rfl⟩

/-- Settles O4: `clear` replaces the content by the empty one. -/
theorem clearEmptiesBuffer : Obligations.ClearEmptiesBuffer := by
  intro b s
  rw [withBuf_eq_setBuf]
  rfl

/-! ### The invariant and the state's operations -/

/-- The invariant speaks of the configuration, the two contents and the mask alone. -/
theorem State.Inv.of_eq {s t : State} (h : s.Inv) (hcfg : t.cfg = s.cfg := by rfl) (hin : t.inbound = s.inbound := by rfl)
    (hout : t.outbound = s.outbound := by rfl) (him : t.im = s.im := by rfl) : t.Inv where
  cfg_ok := by rw [hcfg]; exact h.cfg_ok
  inbound_le := by rw [hcfg, hin]; exact h.inbound_le
  outbound_le := by rw [hcfg, hout]; exact h.outbound_le
  im_clear := by rw [him]; exact h.im_clear

theorem State.Inv.getBuf_le {s : State} (h : s.Inv) (b : Buf) : (s.getBuf b).length ≤ s.cfg.capacity := by
  cases b with
  | inbound => exact h.inbound_le
  | outbound => exact h.outbound_le

/-- A content that fits may replace either buffer's. -/
theorem State.Inv.setBuf {s : State} (h : s.Inv) (b : Buf) {x : List Byte} (hx : x.length ≤ s.cfg.capacity) :
    (s.setBuf b x).Inv := by
  cases b with
  | inbound => exact ⟨h.cfg_ok, hx, h.outbound_le, h.im_clear⟩
  | outbound => exact ⟨h.cfg_ok, h.inbound_le, hx, h.im_clear⟩

theorem State.Inv.clearBuf {s : State} (h : s.Inv) (b : Buf) : (s.clearBuf b).Inv := h.setBuf b (Nat.zero_le _)

theorem State.Inv.transition {s : State} (h : s.Inv) (m : Mode) (sp : F32) : (s.transition m sp).Inv :=
  h.of_eq (s.transition_cfg m sp) (s.transition_inbound m sp) (s.transition_outbound m sp) (s.transition_im m sp)

/-- A tick sets the mask and clears it again (R282). -/
theorem State.Inv.ticked {s : State} (h : s.Inv) (e : U16) (x : F32) : (s.ticked e x).Inv :=
  h.of_eq rfl (s.ticked_inbound e x) (s.ticked_outbound e x) h.im_clear.symm

theorem State.Inv.deliver {s : State} (h : s.Inv) (r : Request) (rest : List Request) : (s.deliver r rest).Inv := by
  cases r with
  | event | call => exact h.of_eq
  | regWrite => exact (h.clearBuf .inbound).of_eq
  | regRead => exact (h.clearBuf .outbound).of_eq

/-! ### Pushes and pops (R130) -/

theorem State.Inv.of_next {u t : State} (hu : u.Inv) (h : (.next u : Host.Outcome State Fault Refusal) = .next t) :
    t.Inv := by
  cases h; exact hu

/-- An operation that pushes keeps the invariant where its own result is within the capacity. -/
theorem State.Inv.of_push {s t : State} {b : Buf} {r : Except Fault (List Byte)} (hi : s.Inv)
    (h : finish (r.map (s.setBuf b)) = .next t)
    (hr : ∀ x, r = .ok x → (s.getBuf b).length ≤ s.cfg.capacity → x.length ≤ s.cfg.capacity) : t.Inv := by
  obtain ⟨x, hx, rfl⟩ := finish_map_eq_next h
  exact hi.setBuf b (hr x hx (hi.getBuf_le b))

/-- An operation that pops keeps the invariant: what it leaves is no longer than what it found. -/
theorem State.Inv.of_pop {α : Type} {s t : State} {b : Buf} {r : Except Fault (α × List Byte)} {val : α → Value}
    (hi : s.Inv) (h : finish (r.map fun x => (s.setBuf b x.2).returning (val x.1)) = .next t)
    (hr : ∀ v rest, r = .ok (v, rest) → rest.length ≤ (s.getBuf b).length) : t.Inv := by
  obtain ⟨⟨v, rest⟩, hx, rfl⟩ := finish_map_eq_next h
  exact (hi.setBuf b ((hr v rest hx).trans (hi.getBuf_le b))).of_eq

theorem pushBack_length_le {cap : Nat} {b b' : List Byte} {v : Byte} (h : pushBack cap b v = .ok b')
    (hb : b.length ≤ cap) : b'.length ≤ cap := by
  obtain ⟨-, -, hle⟩ := pushBack_eq_ok h
  exact hle hb

theorem pushFront_length_le {cap : Nat} {b b' : List Byte} {v : Byte} (h : pushFront cap b v = .ok b')
    (hb : b.length ≤ cap) : b'.length ≤ cap := by
  obtain ⟨-, -, hle⟩ := pushFront_eq_ok h
  exact hle hb

theorem pushFloat_length_le {cap : Nat} {o : FloatOrder} {b b' : List Byte} {v : F32} (h : pushFloat cap o b v = .ok b')
    (hb : b.length ≤ cap) : b'.length ≤ cap := by
  obtain ⟨-, hle⟩ := pushFloat_eq_ok h
  exact hle hb

theorem popFront_length_le {b rest : List Byte} {v : Byte} (h : popFront b = .ok (v, rest)) : rest.length ≤ b.length := by
  simp [popFront_eq_ok h]

theorem popBack_length_le {b rest : List Byte} {v : Byte} (h : popBack b = .ok (v, rest)) : rest.length ≤ b.length := by
  simp [popBack_eq_ok h]

theorem popFloat_length_le {o : FloatOrder} {b rest : List Byte} {v : F32} (h : popFloat o b = .ok (v, rest)) :
    rest.length ≤ b.length := by
  obtain ⟨w0, w1, w2, w3, rfl, -⟩ := popFloat_eq_ok h
  simp only [List.length_cons]
  omega

/-! ### Register reads and the callbacks -/

theorem readFloat_inv {s t : State} (hi : s.Inv) {v : F32} (h : readFloat v s = .ok t) : t.Inv := by
  obtain ⟨rfl, hlen⟩ := readFloat_eq_ok h
  exact hi.setBuf .outbound (hlen hi.outbound_le)

theorem readByte_inv {s t : State} (hi : s.Inv) {v : Byte} (h : readByte v s = .ok t) : t.Inv := by
  obtain ⟨rfl, hlen⟩ := readByte_eq_ok h
  exact hi.setBuf .outbound (hlen hi.outbound_le)

theorem onRead_inv {s t : State} (hi : s.Inv) {a : Byte} (h : onRead a s = .ok t) : t.Inv := by
  have hinv : (s.invoked (.onRead a)).Inv := hi.of_eq
  unfold onRead at h
  cases hr : regOf s.cfg a with
  | none => rw [hr] at h; exact readByte_inv hinv h
  | some r =>
    rw [hr] at h
    cases r with
    | mode => exact readByte_inv hinv h
    | setpoint | p | i | d | f | angle | velocity | current => exact readFloat_inv hinv h

theorem onWrite_inv {s t : State} (hi : s.Inv) {a : Byte} (h : onWrite a s = .ok t) : t.Inv := by
  obtain ⟨u, rfl, ht⟩ := onWrite_effect h
  have hdrained : ((s.invoked (.onWrite a s.inbound)).clearBuf .inbound).Inv := (hi.clearBuf .inbound).of_eq
  obtain rfl | ⟨x, v, rfl⟩ | ⟨m, sp, _, _, _, _, -, -, rfl⟩ := ht
  · exact hdrained
  · exact hdrained.of_eq
  · exact hdrained.transition m sp

/-! ### Events -/

theorem evOverflow_inv {s : State} (hi : s.Inv) : (evOverflow s).Inv := by
  cases hp : s.cfg.overflowPolicy with
  | discard => rw [evOverflow_discard hp]; exact (hi.clearBuf .inbound).of_eq
  | deliverFirst64 => rw [evOverflow_deliverFirst64 hp]; exact hi.of_eq

theorem evDrop_inv {s : State} (hi : s.Inv) : (evDrop s).Inv := (hi.clearBuf .inbound).of_eq

theorem evDataNack_inv {s : State} (hi : s.Inv) : (evDataNack s).Inv := by
  unfold evDataNack
  cases s.state with
  | addressing => exact hi.of_eq
  | writing | idle => exact evDrop_inv hi

/-- The byte is stored only where there is room for it, whatever state the arm runs in (R165; log 15). -/
theorem evPayload_inv {s t : State} (hi : s.Inv) (h : evPayload s = .ok t) : t.Inv := by
  obtain ⟨hroom, rfl⟩ := evPayload_eq_ok h
  have hfits : (s.inbound ++ [s.dr]).length ≤ s.cfg.capacity := by
    rw [List.length_append, List.length_singleton]
    exact Nat.lt_of_le_of_ne hi.inbound_le hroom
  exact (hi.setBuf .inbound hfits).of_eq

theorem evStop_inv {s t : State} (hi : s.Inv) (h : evStop s = .ok t) : t.Inv := by
  obtain ⟨u, hu, rfl⟩ := evStop_eq_ok h
  have hinv : u.Inv := by
    obtain ⟨-, rfl⟩ | ⟨-, hw⟩ := hu
    · exact hi
    · exact onWrite_inv hi hw
  exact (hinv.clearBuf .inbound).of_eq

theorem evTransmit_inv {s t : State} (hi : s.Inv) (h : evTransmit s = .ok t) : t.Inv := by
  obtain ⟨-, rfl⟩ | ⟨w, rest, hb, rfl⟩ := evTransmit_eq_ok h
  · exact hi.of_eq
  · have hle := hi.outbound_le
    rw [hb] at hle
    have hfits : rest.length ≤ s.cfg.capacity := (Nat.le_succ _).trans hle
    exact (hi.setBuf .outbound hfits).of_eq

theorem evStartRead_inv {s t : State} (hi : s.Inv) (h : evStartRead s = .ok t) : t.Inv := by
  obtain ⟨u, hr, ht⟩ := evStartRead_eq_ok h
  exact evTransmit_inv (onRead_inv (hi.clearBuf .outbound) hr) ht

/-- Every row of the table's status codes keeps the invariant, run in whatever state. -/
theorem exec_event_inv {i : Instr} {s t : State} (hi : s.Inv) (hs : i.space = .statusCode)
    (h : exec i s = .next t) : t.Inv := by
  cases i with
  | slaW | gcW => exact (hi.clearBuf .inbound).of_eq.of_next h
  | rxDataAckAddressing | rxDataAckGcAddressing | txDataNack => exact hi.of_eq.of_next h
  | rxDataAckIdle | rxDataAckGcIdle | gcDataNack | busError | other => exact (evDrop_inv hi).of_next h
  | rxDataAckWriting | rxDataAckGcWriting => exact evPayload_inv hi (finish_eq_next h)
  | rxDataAckOverflow | rxDataAckGcOverflow => exact (evOverflow_inv hi).of_next h
  | rxDataNack => exact (evDataNack_inv hi).of_next h
  | stopOrRestart => exact evStop_inv hi (finish_eq_next h)
  | slaR => exact evStartRead_inv hi (finish_eq_next h)
  | txDataAck => exact evTransmit_inv hi (finish_eq_next h)
  | _ => cases hs

theorem decodeEvent_space (c : Config) (sc : Byte) (st : EngineState) (full : Bool) :
    (decodeEvent c sc st full).space = .statusCode := by
  unfold decodeEvent
  cases statusRow c sc with
  | rxDataAck | rxDataAckGc => cases st <;> cases full <;> rfl
  | slaW | gcW | rxDataNack | gcDataNack | stopOrRestart | slaR | txDataAck | txDataNack | busError | other => rfl

/-- `serve` does what one of those rows does (R116, R161). -/
theorem serve_inv {s t : State} (hi : s.Inv) {sc : Byte} (h : serve sc s = .ok t) : t.Inv := by
  have hx := exec_decodeEvent sc s
  rw [h] at hx
  exact exec_event_inv hi (decodeEvent_space s.cfg sc s.state _) hx

/-! ### Every instruction, every step -/

/-- Every instruction keeps the invariant: a push that would overfill a buffer is a fault and answers no state. -/
theorem exec_inv {i : Instr} {s t : State} (hi : s.Inv) (h : exec i s = .next t) : t.Inv := by
  cases i with
  | slaW | gcW | rxDataAckAddressing | rxDataAckWriting | rxDataAckOverflow | rxDataAckIdle | rxDataAckGcAddressing
  | rxDataAckGcWriting | rxDataAckGcOverflow | rxDataAckGcIdle | rxDataNack | gcDataNack | stopOrRestart | slaR
  | txDataAck | txDataNack | busError | other => exact exec_event_inv hi rfl h
  -- register writes and reads
  | wrSetpoint | wrP | wrI | wrD | wrF | wrAngle | wrVelocity | wrCurrent | wrUnrecognized | wrBadLength
  | wrModeInvalid => exact (hi.clearBuf .inbound).of_eq.of_next h
  | wrMode sp m => exact ((hi.clearBuf .inbound).transition m sp).of_next h
  | rdSetpoint | rdP | rdI | rdD | rdF | rdAngle | rdVelocity | rdCurrent => exact readFloat_inv hi (finish_eq_next h)
  | rdMode | rdUnrecognized => exact readByte_inv hi (finish_eq_next h)
  -- the entry point and the callbacks
  | serve => exact serve_inv hi (finish_eq_next h)
  | onWrite => exact onWrite_inv hi (finish_eq_next h)
  | onRead => exact onRead_inv hi (finish_eq_next h)
  -- device operations
  | transitionState m sp => exact (hi.transition m sp).of_next h
  | setP | setI | setD | setF | setSetpoint | getP | getI | getD | getF | getSetpoint | getMode | getAngle | getVel
  | getCurrent | getOutput => exact hi.of_eq.of_next h
  | tick e x => exact (hi.ticked e x).of_next h
  -- ring buffers and the codec
  | rbSize | rbFull | rbEmpty | encodeF32 | decodeF32 => exact hi.of_eq.of_next h
  | rbClear b => exact (hi.clearBuf b).of_next h
  | rbPushBack b v => exact hi.of_push h fun _ => pushBack_length_le
  | rbPushFront b v => exact hi.of_push h fun _ => pushFront_length_le
  | pushFloat b v => exact hi.of_push h fun _ => pushFloat_length_le
  | rbPopFront b => exact hi.of_pop h fun _ _ => popFront_length_le
  | rbPopBack b => exact hi.of_pop h fun _ _ => popBack_length_le
  | popFloat b => exact hi.of_pop h fun _ _ => popFloat_length_le
  | pushBytePopByte b op =>
    cases op with
    | push v => exact hi.of_push h fun _ => pushBack_length_le
    | pop => exact hi.of_pop h fun _ _ => popFront_length_le

/-- Settles O47: a step clears the outputs, or delivers a request and executes its instruction, and both keep the
invariant. -/
theorem stepKeepsInvariant : Obligations.StepKeepsInvariant := by
  intro s t hi h
  obtain ⟨-, ⟨-, rfl⟩ | ⟨r, rest, -, ⟨-, rfl⟩ | ⟨-, i, -, hx⟩⟩⟩ := step_eq_next h
  · exact hi.of_eq
  · exact hi.of_eq
  · exact exec_inv (hi.deliver r rest) hx

end Sys2Proof.Machine

/-! ## The float codec

That `encode_f32` and `decode_f32` undo one another (R150, R151, R154), what the codec does to a buffer (R152, R153, R155),
and that a float register reads back what was written to it (R154, R268). -/

namespace Sys2Proof.Machine

open Sys2Proof.Claims

/-! ### The codec and its wire form -/

/-- The statements' wire form is the model's. -/
theorem wire_eq_wireF32 (o : FloatOrder) (v : F32) : wire o v = wireF32 o v := by
  cases o <;> rfl

/-- `encode_f32` returns the bytes of the wire form. -/
theorem encodeF32_eq_iff {o : FloatOrder} {v : F32} {w0 w1 w2 w3 : Byte} :
    encodeF32 o v = (w0, w1, w2, w3) ↔ wireF32 o v = [w0, w1, w2, w3] := by
  simp [wireF32, Prod.ext_iff]

theorem exec_encodeF32 {v : F32} {s : State} {w0 w1 w2 w3 : Byte} (h : encodeF32 s.cfg.floatOrder v = (w0, w1, w2, w3)) :
    exec (.encodeF32 v) s = .next (s.returning (.bytes w0 w1 w2 w3)) := by
  change execEncodeF32 v s = _
  rw [execEncodeF32, h]

theorem exec_decodeF32 (w0 w1 w2 w3 : Byte) (s : State) :
    exec (.decodeF32 w0 w1 w2 w3) s = .next (s.returning (.f32 (decodeF32 s.cfg.floatOrder w0 w1 w2 w3))) := rfl

/-- Settles O5: the byte order alone selects the bytes that are returned and the pattern they make. -/
theorem codecFollowsByteOrder : Obligations.CodecFollowsByteOrder := by
  intro v w0 w1 w2 w3 s
  refine ⟨fun hle => ⟨exec_encodeF32 ?_, ?_⟩, fun hbe => ⟨exec_encodeF32 ?_, ?_⟩⟩
  · rw [hle]; rfl
  · rw [exec_decodeF32, hle]; rfl
  · rw [hbe]; rfl
  · rw [exec_decodeF32, hbe]; rfl

/-- Settles O6: both directions are those of the wire form, which `encode_f32` writes as four bytes. -/
theorem codecIsBijection : Obligations.CodecIsBijection := by
  refine fun o => ⟨fun v => ?decode_encode, fun w0 w1 w2 w3 => ?encode_decode⟩
  case decode_encode =>
    obtain ⟨w0, w1, w2, w3, hw, hv⟩ := wireF32_eq_bytes o v
    rw [encodeF32_eq_iff.2 hw]
    exact hv
  case encode_decode => exact encodeF32_eq_iff.2 (wireF32_decodeF32 o w0 w1 w2 w3)

/-! ### The codec over a buffer (R152, R153, R155) -/

theorem exec_pushFloat (b : Buf) (v : F32) (s : State) :
    exec (.pushFloat b v) s =
      finish ((pushFloat s.cfg.capacity s.cfg.floatOrder (s.getBuf b) v).map (s.setBuf b)) := rfl

theorem exec_popFloat (b : Buf) (s : State) :
    exec (.popFloat b) s =
      finish ((popFloat s.cfg.floatOrder (s.getBuf b)).map fun r => (s.setBuf b r.2).returning (.f32 r.1)) := rfl

theorem exec_pushByte (b : Buf) (v : Byte) (s : State) :
    exec (.pushBytePopByte b (.push v)) s = exec (.rbPushBack b v) s := rfl

theorem exec_popByte (b : Buf) (s : State) : exec (.pushBytePopByte b .pop) s = exec (.rbPopFront b) s := rfl

/-- `pop_float` takes the wire form of a pattern from the front and returns the pattern. -/
theorem popFloat_wireF32_append (o : FloatOrder) (v : F32) (rest : List Byte) :
    popFloat o (wireF32 o v ++ rest) = .ok (v, rest) := by
  obtain ⟨w0, w1, w2, w3, hw, hv⟩ := wireF32_eq_bytes o v
  rw [hw, ← hv]
  rfl

/-- `pop_float` on a buffer that begins with the wire form of a pattern. -/
theorem exec_popFloat_wireF32 {b : Buf} {v : F32} {s : State} {rest : List Byte}
    (h : s.getBuf b = wireF32 s.cfg.floatOrder v ++ rest) :
    exec (.popFloat b) s = .next ((s.setBuf b rest).returning (.f32 v)) := by
  rw [exec_popFloat, h, popFloat_wireF32_append, finish_map_ok]

/-- Four bytes or more begin with the wire form of some pattern, the one the first four decode to. -/
theorem exists_wireF32_append (o : FloatOrder) {b : List Byte} (h : 4 ≤ b.length) :
    ∃ v rest, b = wireF32 o v ++ rest := by
  obtain ⟨w0, w1, w2, w3, hb⟩ := length_four (List.length_take_of_le h)
  refine ⟨decodeF32 o w0 w1 w2 w3, b.drop 4, ?_⟩
  rw [wireF32_decodeF32, ← hb, List.take_append_drop]

/-- Settles O7: `push_float` by the places that are free, `pop_float` by the bytes that are there. -/
theorem floatsMoveThroughBuffers : Obligations.FloatsMoveThroughBuffers := by
  intro b v s
  simp only [bufOf_eq_getBuf, withBuf_eq_setBuf, gives_eq_returning, wire_eq_wireF32]
  refine ⟨fun hroom => ?room, fun hshort hle => ?full, fun rest hb => exec_popFloat_wireF32 hb, fun hshort => ?short,
    exists_wireF32_append s.cfg.floatOrder⟩
  case room => rw [exec_pushFloat, pushFloat_ok _ v hroom, finish_map_ok]
  case full => rw [exec_pushFloat, pushFloat_full _ v hshort hle, finish_map_error]
  case short => rw [exec_popFloat, popFloat_short _ hshort, finish_map_error]

/-- Settles O8: the two operations are those of the ring buffer, whose rules O2 and O3 give. -/
theorem bytesMoveThroughBuffers : Obligations.BytesMoveThroughBuffers := by
  intro b v s
  obtain ⟨hpush, -⟩ := pushAtEitherEnd b v s
  obtain ⟨hpop, -, -⟩ := popAtEitherEnd b s
  refine ⟨exec_pushByte b v s, exec_popByte b s, fun hroom => ?push, hpop v⟩
  case push =>
    obtain ⟨hback, -⟩ := hpush hroom
    exact hback

/-! ### Write rows and read rows of the float registers (R202 to R206, R231 to R235) -/

theorem exec_writeRowOf (x : PidField) (v : F32) (s : State) :
    exec (writeRowOf x v) s = .next ((s.clearBuf .inbound).setField x v) := by
  cases x <;> rfl

theorem exec_readRowOf (x : PidField) (s : State) :
    exec (readRowOf x) s = finish (readFloat (pidField s.active x) s) := by
  cases x <;> rfl

/-- What a setter wrote is what the active controller holds (R262 to R266, R268). -/
@[simp] theorem State.setField_active_field (s : State) (x : PidField) (v : F32) :
    pidField (s.setField x v).active x = v := by
  simp [State.active, State.getPid]

/-- The read row of a field, where `outbound` has room, pushes the wire form of what the active controller holds. -/
theorem exec_readRowOf_ok (x : PidField) {s : State} (h : s.outbound.length + 4 ≤ s.cfg.capacity) :
    exec (readRowOf x) s =
      .next (s.setBuf .outbound (s.outbound ++ wireF32 s.cfg.floatOrder (pidField s.active x))) := by
  rw [exec_readRowOf, readFloat_ok _ h, finish_ok]

/-- Settles O26: the read row finds the pattern in the field the write row set, pushes its wire form onto the empty
`outbound`, and `pop_float` takes that from the buffer. -/
theorem writeThenReadReturnsValue : Obligations.WriteThenReadReturnsValue := by
  intro x v s hempty hcap
  have hread : exec (readRowOf x) ((s.clearBuf .inbound).setField x v) =
      .next (((s.clearBuf .inbound).setField x v).setBuf .outbound (wireF32 s.cfg.floatOrder v)) := by
    rw [exec_readRowOf_ok]
    · simp [hempty]
    · simpa [hempty] using hcap
  exact ⟨_, _, exec_writeRowOf x v s, hread, (wire_eq_wireF32 _ v).symm,
    exec_popFloat_wireF32 (List.append_nil _).symm⟩

end Sys2Proof.Machine

/-! ## The engine's events

What `on_read` pushes and when `serve` answers a next state (R160, R161); from these and from `EventEffect` the engine's
next state, the callbacks and the engine's invariant (R176, R177, R180); last, each row of the table of events (R162 to R175). -/

namespace Sys2Proof.Machine

open Sys2Proof.Claims

/-! ### The instructions in terms of the engine's actions -/

theorem not_bufEmpty_eq_decide (b : List Byte) : (!bufEmpty b) = decide (b ≠ []) := by
  rw [bufEmpty_eq_decide, decide_not]

theorem exec_serve (sc : Byte) (s : State) : exec (.serve sc) s = finish (serve sc s) := rfl

theorem exec_onWrite (a : Byte) (s : State) : exec (.onWrite a) s = finish (onWrite a s) := rfl

theorem exec_stopOrRestart (s : State) : exec .stopOrRestart s = finish (evStop s) := rfl

theorem exec_rxDataNack (s : State) : exec .rxDataNack s = .next (evDataNack s) := rfl

theorem exec_slaR (s : State) : exec .slaR s = finish (evStartRead s) := rfl

theorem exec_txDataAck (s : State) : exec .txDataAck s = finish (evTransmit s) := rfl

/-! ### The payload of a read (R230 to R240) -/

/-- The payload that a read of a register, or of a selector of none, produces. -/
def regPayload (s : State) : Option Reg → List Byte
  | some .setpoint => wireF32 s.cfg.floatOrder (pidField s.active .setpoint)
  | some .mode => [modeEnc s.cfg s.mode]
  | some .p => wireF32 s.cfg.floatOrder (pidField s.active .p)
  | some .i => wireF32 s.cfg.floatOrder (pidField s.active .i)
  | some .d => wireF32 s.cfg.floatOrder (pidField s.active .d)
  | some .f => wireF32 s.cfg.floatOrder (pidField s.active .f)
  | some .angle => wireF32 s.cfg.floatOrder s.angle
  | some .velocity => wireF32 s.cfg.floatOrder s.velocity
  | some .current => wireF32 s.cfg.floatOrder s.currentReading
  | none => [s.cfg.sentinel]

/-- The statements' payload is that of the register the selector names. -/
theorem readPayload_eq_regPayload (s : State) (a : Byte) : readPayload s a = regPayload s (regOf s.cfg a) := by
  simp only [readPayload, wire_eq_wireF32, regOf, apply_ite (regPayload s)]
  rfl

/-- `on_read` pushes that payload, a float's wire form or one byte. -/
theorem onRead_pushes (a : Byte) (s : State) :
    (∃ v, readPayload s a = wireF32 s.cfg.floatOrder v ∧ onRead a s = readFloat v (s.invoked (.onRead a))) ∨
      ∃ v, readPayload s a = [v] ∧ onRead a s = readByte v (s.invoked (.onRead a)) := by
  rw [readPayload_eq_regPayload, onRead]
  cases regOf s.cfg a with
  | none => exact .inr ⟨_, rfl, rfl⟩
  | some r =>
    cases r with
    | mode => exact .inr ⟨_, rfl, rfl⟩
    | setpoint | p | i | d | f | angle | velocity | current => exact .inl ⟨_, rfl, rfl⟩

theorem readPayload_length_le_four (s : State) (a : Byte) : (readPayload s a).length ≤ 4 := by
  obtain ⟨v, hp, -⟩ | ⟨v, hp, -⟩ := onRead_pushes a s
  · rw [hp, wireF32_length]
  · rw [hp, List.length_singleton]; omega

theorem readPayload_ne_nil (s : State) (a : Byte) : readPayload s a ≠ [] := by
  obtain ⟨v, hp, -⟩ | ⟨v, hp, -⟩ := onRead_pushes a s <;> rw [hp] <;> exact List.cons_ne_nil _ _

/-- `on_read` where `outbound` has room for the payload. -/
theorem onRead_ok {a : Byte} {s : State} (h : s.outbound.length + (readPayload s a).length ≤ s.cfg.capacity) :
    onRead a s = .ok ((s.invoked (.onRead a)).setBuf .outbound (s.outbound ++ readPayload s a)) := by
  obtain ⟨v, hp, hr⟩ | ⟨v, hp, hr⟩ := onRead_pushes a s
  · rw [hp, wireF32_length] at h
    rw [hr, readFloat_ok v (s := s.invoked _) h, hp]
    rfl
  · rw [hp, List.length_singleton] at h
    rw [hr, readByte_ok v (s := s.invoked _) (Nat.ne_of_lt h), hp]
    rfl

/-- `on_read` where it has not. -/
theorem onRead_full {a : Byte} {s : State} (h : s.cfg.capacity < s.outbound.length + (readPayload s a).length)
    (hle : s.outbound.length ≤ s.cfg.capacity) : onRead a s = .error .pushFull := by
  obtain ⟨v, hp, hr⟩ | ⟨v, hp, hr⟩ := onRead_pushes a s
  · rw [hp, wireF32_length] at h
    rw [hr, readFloat_full v (s := s.invoked _) h hle]
  · rw [hp, List.length_singleton] at h
    rw [hr, readByte_full v (s := s.invoked _) (Nat.le_antisymm hle (Nat.le_of_lt_succ h))]

/-- What an `on_read` that succeeds has done. -/
theorem onRead_eq_ok {a : Byte} {s t : State} (h : onRead a s = .ok t) :
    t = (s.invoked (.onRead a)).setBuf .outbound (s.outbound ++ readPayload s a) := by
  obtain ⟨v, hp, hr⟩ | ⟨v, hp, hr⟩ := onRead_pushes a s
  · obtain ⟨rfl, -⟩ := readFloat_eq_ok (hr.symm.trans h)
    rw [hp]; rfl
  · obtain ⟨rfl, -⟩ := readByte_eq_ok (hr.symm.trans h)
    rw [hp]; rfl

/-! ### When an event answers a next state -/

theorem writeFloat_total (x : PidField) (s : State) : ∃ t, writeFloat x s = .ok t := by
  by_cases hl : s.inbound.length = 4
  · obtain ⟨w0, w1, w2, w3, hb⟩ := length_four hl
    exact ⟨_, writeFloat_four x hb⟩
  · exact ⟨_, writeFloat_other x hl⟩

theorem writeMode_total (s : State) : ∃ t, writeMode s = .ok t := by
  by_cases hl : s.inbound.length = 5
  · obtain ⟨w0, w1, w2, w3, mb, hb⟩ := length_five hl
    exact ⟨_, writeMode_five hb⟩
  · exact ⟨_, writeMode_other hl⟩

/-- `on_write` runs to completion on every payload: its checks come before its pops (R201). -/
theorem onWrite_total (a : Byte) (s : State) : ∃ t, onWrite a s = .ok t := by
  simp only [onWrite, State.invoked_cfg]
  cases regOf s.cfg a with
  | none => exact ⟨_, rfl⟩
  | some r =>
    cases r with
    | angle | velocity | current => exact ⟨_, rfl⟩
    | setpoint | p | i | d | f => exact writeFloat_total _ _
    | mode => exact writeMode_total _

theorem evStop_total (s : State) : ∃ t, evStop s = .ok t := by
  by_cases hb : s.inbound = []
  · exact ⟨_, evStop_nil hb⟩
  · obtain ⟨u, hu⟩ := onWrite_total s.address s
    exact ⟨_, evStop_cons hb hu⟩

theorem evTransmit_total (s : State) : ∃ t, evTransmit s = .ok t := by
  cases hb : s.outbound with
  | nil => exact ⟨_, evTransmit_nil hb⟩
  | cons w rest => exact ⟨_, evTransmit_cons hb⟩

/-- Addressed for read: `on_read` on a cleared outbound, then the transmission of its first byte (R170). -/
theorem evStartRead_of_onRead {s u : State} (h : onRead s.address (s.clearBuf .outbound) = .ok u) :
    evStartRead s = evTransmit u := by
  rw [evStartRead, h]
  rfl

/-- The buffer that `on_read` finds when the device is addressed for read is empty, so the payload needs the capacity only. -/
theorem onRead_cleared_ok {s : State} (h : (readPayload s s.address).length ≤ s.cfg.capacity) :
    onRead s.address (s.clearBuf .outbound) =
      .ok (((s.clearBuf .outbound).invoked (.onRead s.address)).setBuf .outbound (readPayload s s.address)) :=
  onRead_ok (s := s.clearBuf .outbound) (by rw [Nat.add_comm]; exact h)

/-- Addressed for read where no buffer holds the payload (R138; log 34). -/
theorem evStartRead_full {s : State} (h : s.cfg.capacity < (readPayload s s.address).length) :
    evStartRead s = .error .pushFull := by
  have hread : onRead s.address (s.clearBuf .outbound) = .error .pushFull :=
    onRead_full (s := s.clearBuf .outbound) (by rw [Nat.add_comm]; exact h) (Nat.zero_le _)
  rw [evStartRead, hread]
  rfl

/-- `serve` answers a next state from every state whose buffers can hold a float, the longest payload there is. -/
theorem serve_total (sc : Byte) {s : State} (hcap : 4 ≤ s.cfg.capacity) : ∃ t, serve sc s = .ok t := by
  cases hc : statusClass s.cfg sc with
  | slaW | gcW => exact ⟨_, serve_start (by simp [hc])⟩
  | rxDataNack | txDataNack | busError | gcDataNack | other => simp only [serve, hc]; exact ⟨_, rfl⟩
  | stopOrRestart => rw [serve_stop hc]; exact evStop_total s
  | slaR =>
    have hread := onRead_cleared_ok ((readPayload_length_le_four s s.address).trans hcap)
    simp only [serve, hc, evStartRead_of_onRead hread]
    exact evTransmit_total _
  | txDataAck => simp only [serve, hc]; exact evTransmit_total s
  | rxDataAck =>
    cases hs : s.state with
    | addressing => exact ⟨_, serve_selector hc hs⟩
    | idle => simp only [serve, hc, hs]; exact ⟨_, rfl⟩
    | writing =>
      by_cases hfull : s.inbound.length = s.cfg.capacity
      · exact ⟨_, serve_overflow hc hs hfull⟩
      · rw [serve_payload hc hs hfull]; exact ⟨_, evPayload_ok hfull⟩

/-! ### What every event returns, and what a transmitter event finds -/

/-- `serve` returns the result that it has the controller latch (R27, R160). -/
theorem EventEffect.value {s t : State} {c : EventClass} (h : EventEffect s c t) :
    t.out.value = some (.bool t.ackEn) := by
  cases h with
  | addressed | captured | stored | overflowed | dropped | ignored | stopped | readEnded => rfl
  | transmitted hu ht => obtain ⟨-, rfl⟩ | ⟨w, rest, -, rfl⟩ := evTransmit_eq_ok ht <;> rfl

/-- The state in which a transmitter event looks for a byte: `SLA_R` has put the payload of a read into `outbound`. -/
theorem transmitter_finds {s u : State} {c : EventClass}
    (hu : c = .txDataAck ∧ u = s ∨ c = .slaR ∧ onRead s.address (s.clearBuf .outbound) = .ok u) :
    u.state = s.state ∧ u.inbound = s.inbound ∧ u.outbound = outboundSeen s c := by
  obtain ⟨rfl, rfl⟩ | ⟨rfl, hr⟩ := hu
  · exact ⟨rfl, rfl, rfl⟩
  · obtain rfl := onRead_eq_ok hr
    exact ⟨rfl, rfl, rfl⟩

theorem onWrite_outbound {a : Byte} {s t : State} (h : onWrite a s = .ok t) : t.outbound = s.outbound := by
  obtain ⟨u, rfl, rfl | ⟨x, v, rfl⟩ | ⟨m, sp, _, _, _, _, -, -, rfl⟩⟩ := onWrite_effect h
  · rfl
  · rfl
  · exact State.transition_outbound _ m sp

theorem onWrite_callbacks {a : Byte} {s t : State} (h : onWrite a s = .ok t) :
    t.out.callbacks = s.out.callbacks ++ [.onWrite a s.inbound] := by
  obtain ⟨u, rfl, rfl | ⟨x, v, rfl⟩ | ⟨m, sp, _, _, _, _, -, -, rfl⟩⟩ := onWrite_effect h
  · rfl
  · rfl
  · rw [State.transition_out]; rfl

/-! ### The engine's invariant (R177) -/

/-- No payload while a selector is awaited: the engine enters Addressing only as inbound is cleared. -/
theorem EventEffect.addressing_empty {s t : State} {c : EventClass} (h : EventEffect s c t)
    (hs : s.state = .addressing → s.inbound = []) : t.state = .addressing → t.inbound = [] := by
  cases h with
  | addressed => exact fun _ => rfl
  | captured | overflowed | dropped | stopped | readEnded => exact fun ht => nomatch ht
  | stored hw => exact fun ht => nomatch hw.symm.trans ht
  | ignored => exact hs
  | transmitted hu ht =>
    obtain ⟨hst, hin, -⟩ := transmitter_finds hu
    rw [← hst, ← hin] at hs
    obtain ⟨-, rfl⟩ | ⟨w, rest, -, rfl⟩ := evTransmit_eq_ok ht
    · exact fun ht => nomatch ht
    · exact hs

/-- At most three bytes wait to be sent: of a payload of at most four the first is sent at once. -/
theorem EventEffect.outbound_le_three {s t : State} {c : EventClass} (h : EventEffect s c t)
    (hs : s.outbound.length ≤ 3) : t.outbound.length ≤ 3 := by
  cases h with
  | addressed | captured | stored | overflowed | dropped | ignored | readEnded => exact hs
  | stopped hu =>
    obtain ⟨-, rfl⟩ | ⟨-, hw⟩ := hu
    · exact hs
    · exact (congrArg List.length (onWrite_outbound hw)).trans_le hs
  | @transmitted _ u _ hu ht =>
    have hfound : u.outbound.length ≤ 4 := by
      obtain ⟨-, -, hout⟩ := transmitter_finds hu
      rw [hout]
      obtain ⟨rfl, -⟩ | ⟨rfl, -⟩ := hu
      · exact hs.trans (Nat.le_succ 3)
      · exact readPayload_length_le_four s s.address
    obtain ⟨hnil, rfl⟩ | ⟨w, rest, hcons, rfl⟩ := evTransmit_eq_ok ht
    · exact (congrArg List.length hnil).trans_le (Nat.zero_le 3)
    · rw [hcons] at hfound
      exact Nat.le_of_succ_le_succ hfound

/-- Settles O48: an event has one of the listed effects and each keeps the invariant; a tick leaves the engine. -/
theorem runKeepsEngineInvariant : Obligations.RunKeepsEngineInvariant := by
  intro s t r rest hp hn hs h
  have hinv : t.Inv := stepKeepsInvariant s t hs.toInv h
  obtain ⟨sc, d, rfl⟩ | ⟨e, x, rfl⟩ := isNative_iff.1 hn
  · have he := step_event_effect hp hs.im_clear h
    exact ⟨hinv, he.addressing_empty hs.addressing_empty, he.outbound_le_three hs.outbound_le_three⟩
  · obtain rfl := step_tick_eq hp hs.im_clear h
    exact ⟨hinv, by simpa using hs.addressing_empty, by simpa using hs.outbound_le_three⟩

/-! ### No fault (R177) -/

/-- A step that faults has executed the instruction of the oldest request. -/
theorem step_eq_fault {s : State} {f : Fault} (h : step s = .fault f) :
    ∃ r rest i, s.pending = r :: rest ∧ decode s.cfg (fetch s r) = .ok i ∧ exec i (s.deliver r rest) = .fault f := by
  cases hok : s.cfg.ok with
  | false => rw [step_badConfig hok] at h; cases h
  | true =>
    cases hp : s.pending with
    | nil => rw [step_nothingPending hok hp] at h; cases h
    | cons r rest =>
      cases hm : s.im && r.isInterrupt with
      | true =>
        obtain ⟨him, hr⟩ := Bool.and_eq_true_iff.1 hm
        rw [step_masked hok him hp hr] at h
        cases h
      | false =>
        cases hd : decode s.cfg (fetch s r) with
        | error e => simp [step, hok, hp, hm, hd] at h
        | ok i => exact ⟨r, rest, i, rfl, hd, (step_eq_exec hok hp hm hd).symm.trans h⟩

/-- Settles O45: an event runs `serve`, which is total, and a tick cannot fault. -/
theorem blockNeverFaults : Obligations.BlockNeverFaults := by
  intro s r rest hp hn hcap f hf
  obtain ⟨r', rest', i, hp', hd, hx⟩ := step_eq_fault hf
  obtain ⟨rfl, rfl⟩ := List.cons.inj (hp.symm.trans hp')
  obtain ⟨sc, d, rfl⟩ | ⟨e, x, rfl⟩ := isNative_iff.1 hn
  · obtain rfl := Except.ok.inj hd
    obtain ⟨t, ht⟩ := serve_total sc (s := s.deliver (.event sc d) rest) hcap
    have hfinish : finish (serve sc (s.deliver (.event sc d) rest)) = .fault f :=
      (exec_decodeEvent sc _).symm.trans hx
    rw [ht] at hfinish
    cases hfinish
  · obtain rfl := eq_of_decode_call hd
    cases hx

/-! ### `serve`, the decoder and the table of transitions (R160, R161, R176) -/

/-- Settles O37: the decoded instruction does what `serve` does, `serve` is total where a float fits, and the result it
returns is the one it latches. -/
theorem serveIsTotalAndFollowsDecoder : Obligations.ServeIsTotalAndFollowsDecoder := by
  intro sc s
  refine ⟨?follows, fun hcap => ?total, fun hc hfull => ?full⟩
  case follows => rw [← bufFull_eq_decide, exec_decodeEvent, exec_serve]
  case total =>
    obtain ⟨t, ht⟩ := serve_total sc hcap
    exact ⟨t, by rw [exec_serve, ht, finish_ok], (serve_effect ht).value⟩
  case full =>
    have hserve : serve sc s = .error .pushFull := by simp only [serve, hc, evStartRead_full hfull]
    rw [exec_serve, hserve, finish_error]

/-- The engine's next state and the result after a transmission: the table's entry for either transmitter event. -/
theorem evTransmit_next {s t : State} (h : evTransmit s = .ok t) :
    (t.state, t.ackEn) = if s.outbound = [] then (.idle, false) else (s.state, decide (2 ≤ s.outbound.length)) := by
  obtain ⟨hb, rfl⟩ | ⟨w, rest, hb, rfl⟩ := evTransmit_eq_ok h
  · rw [if_pos hb]; rfl
  · rw [hb, if_neg (List.cons_ne_nil _ _)]
    cases rest with
    | nil | cons => simp

/-- An event's next state and result are the entry of the table (R176). -/
theorem EventEffect.tableNext_eq {s t : State} {c : EventClass} (h : EventEffect s c t) :
    (t.state, t.ackEn) = tableNext c s.state (decide (s.inbound.length = s.cfg.capacity)) (outboundSeen s c) := by
  cases h with
  | addressed hc => obtain rfl | rfl := hc <;> rfl
  | captured hs => rw [hs]; rfl
  | stored hs hroom => rw [hs, decide_eq_false hroom]; exact congrArg (·, true) hs
  | overflowed hs hfull => rw [hs, decide_eq_true hfull]; rfl
  | ignored hs => rw [hs]; exact congrArg (·, true) hs
  | stopped | readEnded => rfl
  | dropped hc =>
    obtain ⟨rfl, hs⟩ | ⟨rfl, hs⟩ | rfl | rfl | rfl := hc
    · rw [hs]; rfl
    · cases hst : s.state with
      | addressing => exact absurd hst hs
      | idle | writing => rfl
    · rfl
    · rfl
    · rfl
  | transmitted hu ht =>
    obtain ⟨hst, -, hout⟩ := transmitter_finds hu
    rw [evTransmit_next ht, hst, hout]
    obtain ⟨rfl, -⟩ | ⟨rfl, -⟩ := hu <;> rfl

/-- Settles O38: by the effect of the event. -/
theorem serveFollowsTransitionTable : Obligations.ServeFollowsTransitionTable := by
  intro sc s t _ h
  exact (serve_effect (finish_eq_next h)).tableNext_eq

/-! ### The callbacks (R169, R170, R180) -/

/-- The callbacks that an event of a class invokes. -/
def callbacksOf (s : State) : EventClass → List Callback
  | .stopOrRestart => if s.inbound = [] then [] else [.onWrite s.address s.inbound]
  | .slaR => [.onRead s.address]
  | .slaW | .gcW | .rxDataAck | .rxDataNack | .txDataAck | .txDataNack | .busError | .gcDataNack | .other => []

theorem evTransmit_callbacks {s t : State} (h : evTransmit s = .ok t) : t.out.callbacks = s.out.callbacks := by
  obtain ⟨-, rfl⟩ | ⟨w, rest, -, rfl⟩ := evTransmit_eq_ok h <;> rfl

theorem EventEffect.callbacks {s t : State} {c : EventClass} (h : EventEffect s c t) :
    t.out.callbacks = s.out.callbacks ++ callbacksOf s c := by
  cases h with
  | addressed hc => obtain rfl | rfl := hc <;> exact (List.append_nil _).symm
  | captured | stored | overflowed | ignored | readEnded => exact (List.append_nil _).symm
  | dropped hc =>
    obtain ⟨rfl, -⟩ | ⟨rfl, -⟩ | rfl | rfl | rfl := hc <;> exact (List.append_nil _).symm
  | stopped hu =>
    obtain ⟨hb, rfl⟩ | ⟨hb, hw⟩ := hu
    · rw [callbacksOf, if_pos hb]; exact (List.append_nil _).symm
    · rw [callbacksOf, if_neg hb, ← onWrite_callbacks hw]; rfl
  | transmitted hu ht =>
    rw [evTransmit_callbacks ht]
    obtain ⟨rfl, rfl⟩ | ⟨rfl, hr⟩ := hu
    · exact (List.append_nil _).symm
    · obtain rfl := onRead_eq_ok hr
      rfl

/-- Settles O40: the delivered state records no callback, so those of the event are all there are. -/
theorem callbackDiscipline : Obligations.CallbackDiscipline := by
  intro sc d rest s t hp him h
  have hcallbacks : t.out.callbacks = callbacksOf s (statusClass s.cfg sc) := (step_event_effect hp him h).callbacks
  rw [hcallbacks]
  cases statusClass s.cfg sc <;> rfl

/-! ### Receiving: the rows of the table (R162 to R169) -/

/-- A code that a configuration does not list is `OTHER` (R96). -/
theorem statusRow_of_notMem {c : Config} {sc : Byte} (h : sc ∉ c.statusMap.map Prod.fst) : statusRow c sc = .other := by
  have hnone : c.statusMap.find? (fun e => e.1 == sc) = none := by
    rw [List.find?_eq_none]
    intro e he heq
    exact h (List.mem_map.2 ⟨e, he, beq_iff_eq.1 heq⟩)
  rw [statusRow, hnone]
  rfl

/-- Settles O27: both rows run the one action of R162, R163. -/
theorem startForWriteAwaitsSelector : Obligations.StartForWriteAwaitsSelector :=
  fun _ => ⟨rfl, rfl, fun _ _ => rfl, fun _ _ => rfl⟩

/-- Settles O28: both lines of data bytes run the one action of R164. -/
theorem selectorByteIsCaptured : Obligations.SelectorByteIsCaptured :=
  fun _ => ⟨_, rfl, rfl, rfl, fun _ => ⟨rfl, rfl⟩⟩

/-- Settles O29: there is room for the byte, so its push succeeds. -/
theorem payloadByteIsStored : Obligations.PayloadByteIsStored := by
  intro s hroom
  have hstored := congrArg finish (evPayload_ok hroom)
  exact ⟨_, rfl, hstored, hstored, rfl, rfl⟩

/-- Settles O30: by the policy, for either line of data bytes. -/
theorem overflowEndsTransaction : Obligations.OverflowEndsTransaction := by
  intro s
  refine ⟨evOverflow s, ?_, rfl, rfl, rfl, rfl⟩
  cases hp : s.cfg.overflowPolicy with
  | discard => rw [evOverflow_discard hp]; rfl
  | deliverFirst64 => rw [evOverflow_deliverFirst64 hp]; rfl

/-- Settles O31: the five rows run the same action; a code that the default table does not list is read as `OTHER`. -/
theorem malformedEventsDropPartialData : Obligations.MalformedEventsDropPartialData := by
  intro sc s
  refine ⟨_, rfl, rfl, rfl, rfl, rfl, rfl, fun _ => ⟨rfl, rfl⟩, fun _ _ => rfl, fun _ _ => rfl, fun hsc st full => ?_⟩
  have hrow : statusRow Config.default sc = .other := statusRow_of_notMem hsc
  simp only [decode, decodeEvent, hrow]

/-- Settles O32: outside Addressing the byte ends the write as a spurious one does. -/
theorem dataNackKeepsAddressing : Obligations.DataNackKeepsAddressing := by
  intro s
  rw [exec_rxDataNack, evDataNack]
  refine ⟨fun hs => ?awaiting, fun hs => ?elsewhere, fun _ _ => rfl⟩
  case awaiting => rw [hs]; rfl
  case elsewhere =>
    cases hst : s.state with
    | addressing => exact absurd hst hs
    | writing | idle => rfl

/-- Settles O33: `on_write` is total, and the end of a write clears what it leaves. -/
theorem stopDeliversPayload : Obligations.StopDeliversPayload := by
  intro s
  refine ⟨fun hb => ?empty, fun hb => ?payload, fun _ _ => rfl⟩
  case empty =>
    rw [exec_stopOrRestart, evStop_nil hb, finish_ok, State.clearBuf, ← hb]
    rfl
  case payload =>
    obtain ⟨u, hu⟩ := onWrite_total s.address s
    refine ⟨u, by rw [exec_onWrite, hu, finish_ok], ?_⟩
    rw [exec_stopOrRestart, evStop_cons hb hu]
    rfl

/-! ### Sending: the rows of the table (R170 to R172) -/

/-- Settles O34: `on_read` leaves the payload, which is not empty, and its first byte is sent. -/
theorem startForReadSendsFirstByte : Obligations.StartForReadSendsFirstByte := by
  refine fun s => ⟨fun _ _ => rfl, fun hfits => ?_⟩
  have hread := onRead_cleared_ok hfits
  obtain ⟨w, rest, hp⟩ := List.exists_cons_of_ne_nil (readPayload_ne_nil s s.address)
  rw [hp] at hread
  refine ⟨_, w, rest, congrArg finish hread, rfl, ?_⟩
  rw [exec_slaR, evStartRead_of_onRead hread, evTransmit_cons rfl, not_bufEmpty_eq_decide]
  rfl

/-- Settles O35: by whether a byte waits in `outbound`. -/
theorem nextByteIsSent : Obligations.NextByteIsSent := by
  intro s
  refine ⟨fun w rest hb => ?sent, fun hb => ?nothing, fun _ _ => rfl⟩
  case sent =>
    rw [exec_txDataAck, evTransmit_cons hb, not_bufEmpty_eq_decide]
    rfl
  case nothing =>
    rw [exec_txDataAck, evTransmit_nil hb]
    rfl

/-- Settles O36: the row runs the action of R172. -/
theorem readEndReturnsToIdle : Obligations.ReadEndReturnsToIdle :=
  fun _ => ⟨rfl, fun _ _ => rfl⟩

end Sys2Proof.Machine

/-! ## Register writes

What a write row does to the active controller and to the bank (R202 to R207), from which well-formed writes the decoder
reads each row, and that `on_write` runs the row the decoder reads (R201); from these, the writes that are ignored (R208 to
R213). -/

namespace Sys2Proof.Machine

open Sys2Proof.Claims

/-! ### A setter and a mode switch, as the statements describe them (R260, R262 to R266) -/

/-- The statements' hook is the model's. -/
theorem hookResult_eq_pidOnSet (c : Config) (m : Mode) (x : PidField) (v : F32) (q : Pid) :
    hookResult c m x v q = pidOnSet c m x v q := rfl

/-- A setter writes its field and the accumulator: with the old accumulator put back, only the field is new (R292, R293). -/
theorem pidSet_with_acc (c : Config) (m : Mode) (x : PidField) (v : F32) (q : Pid) :
    { pidSet c m x v q with acc := q.acc } = pidStore q x v := by
  cases x <;> rfl

/-- A setter's new accumulator is the hook's, on the controller whose field has been written (R292, R293). -/
theorem pidSet_acc (c : Config) (m : Mode) (x : PidField) (v : F32) (q : Pid) :
    (pidSet c m x v q).acc = hookResult c m x v { pidSet c m x v q with acc := q.acc } := by
  rw [pidSet_with_acc, hookResult_eq_pidOnSet]
  rfl

theorem fieldWritten_setField (s : State) (x : PidField) (v : F32) : FieldWritten s (s.setField x v) s.mode x v := by
  simp only [FieldWritten, fieldOf_eq_pidField, State.setField_pid, perMode_get_set_self]
  exact ⟨pidSet_field_self .., fun y hy => pidSet_field_ne _ _ _ _ hy, pidSet_acc ..,
    fun m' hm => perMode_get_set_ne _ _ hm, rfl⟩

theorem State.transition_of_eq {s : State} {m : Mode} (h : m = s.mode) (sp : F32) : s.transition m sp = s := if_pos h

theorem State.transition_frame (s : State) (m : Mode) (sp : F32) :
    { s.transition m sp with mode := s.mode, pid := s.pid } = s := by
  unfold State.transition
  split <;> rfl

theorem switched_transition {s : State} {m : Mode} (h : m ≠ s.mode) (sp : F32) :
    Switched s (s.transition m sp) m sp := by
  simp only [Switched, fieldOf_eq_pidField, State.transition_pid, if_neg h, perMode_get_set_self]
  refine ⟨State.transition_mode s m sp, pidSet_field_self _ _ .setpoint _ _, fun y hy => ?gains, pidSet_acc ..,
    fun m' hm => perMode_get_set_ne _ _ hm, State.transition_frame s m sp⟩
  case gains => rw [pidSet_field_ne _ _ _ _ hy, pidReset_field]

/-! ### The write rows (R202 to R213) -/

theorem exec_wrMode (sp : F32) (m : Mode) (s : State) :
    exec (.wrMode sp m) s = .next ((s.clearBuf .inbound).transition m sp) := rfl

theorem exec_wrBadLength (a : Byte) (p : List Byte) (s : State) :
    exec (.wrBadLength a p) s = .next (s.clearBuf .inbound) := rfl

theorem exec_wrModeInvalid (sp : F32) (mb : Byte) (s : State) :
    exec (.wrModeInvalid sp mb) s = .next (s.clearBuf .inbound) := rfl

/-! ### The decoder on a row's selector and payload (R99 to R104, R110 to R114) -/

/-- The decoder reads a well-formed row from the row's selector and payload. -/
theorem WriteRow.decode_eq {c : Config} {a : Byte} {p : List Byte} {i : Instr} (h : WriteRow c a p i) (hok : c.ok = true)
    (hwf : i.wellFormed c = true) : decode c (.write a p) = .ok i :=
  decode_write_eq_ok.2 ⟨h.wellFormed_eq.symm.trans hwf, h.decodeWrite_eq hok⟩

theorem writeRowOf_wellFormed {c : Config} (x : PidField) (v : F32) (h : 4 ≤ c.capacity) :
    (writeRowOf x v).wellFormed c = true := by
  cases x <;> exact decide_eq_true h

theorem wrModeInvalid_wellFormed {c : Config} {mb : Byte} (sp : F32) (hm : modeOf c mb = none) (h : 5 ≤ c.capacity) :
    (Instr.wrModeInvalid sp mb).wellFormed c = true :=
  Bool.and_eq_true_iff.2 ⟨Option.isNone_iff_eq_none.2 hm, decide_eq_true h⟩

theorem selectorOfField_eq_selectorOf (c : Config) (x : PidField) :
    selectorOfField c x = selectorOf c (fieldReg x) := by
  cases x <;> rfl

theorem selectorOf_mem_selectors (c : Config) (r : Reg) : selectorOf c r ∈ c.selectors := by
  cases r <;> simp [selectorOf, Config.selectors]

/-- The field's write expects one float (R101). -/
theorem expectedLength_fieldReg (x : PidField) : expectedLength (fieldReg x) = some 4 := by
  cases x <;> rfl

/-- A selector that is none of the nine names no register (R112). -/
theorem regOf_eq_none {c : Config} {a : Byte} (h : a ∉ c.selectors) : regOf c a = none :=
  Option.eq_none_iff_forall_ne_some.2 fun r hr => h (selectorOf_of_regOf hr ▸ selectorOf_mem_selectors c r)

/-- Four payload bytes and the byte of no mode are the row for that, with the pattern of the four (R111, R213). -/
theorem writeRow_modeInvalid_bytes {c : Config} {mb : Byte} (hm : modeOf c mb = none) (w0 w1 w2 w3 : Byte) :
    WriteRow c c.selMode [w0, w1, w2, w3, mb] (.wrModeInvalid (decodeF32 c.floatOrder w0 w1 w2 w3) mb) := by
  have hrow := WriteRow.modeInvalid (decodeF32 c.floatOrder w0 w1 w2 w3) hm
  rwa [wireF32_decodeF32] at hrow

/-! ### `on_write` and the decoder (R201) -/

/-- The row decoded from a float write's payload does what the callback's check, pops and setter do. -/
theorem exec_decodeFloatWrite (a : Byte) (x : PidField) (s : State) :
    exec (decodeFloatWrite s.cfg a s.inbound (writeRowOf x)) s = finish (writeFloat x s) := by
  by_cases hl : s.inbound.length = 4
  · obtain ⟨w0, w1, w2, w3, hb⟩ := length_four hl
    rw [writeFloat_four x hb, hb]
    exact exec_writeRowOf x _ s
  · rw [writeFloat_other x hl, decodeFloatWrite_otherLength _ hl, exec_wrBadLength, finish_ok]

/-- The row decoded from a mode write's payload does what the callback's checks, pops and switch do. -/
theorem exec_decodeModeWrite (a : Byte) (s : State) :
    exec (decodeModeWrite s.cfg a s.inbound) s = finish (writeMode s) := by
  by_cases hl : s.inbound.length = 5
  · obtain ⟨w0, w1, w2, w3, mb, hb⟩ := length_five hl
    rw [writeMode_five hb, hb]
    cases hm : modeOf s.cfg mb <;> simp only [decodeModeWrite, hm] <;> rfl
  · rw [writeMode_other hl, decodeModeWrite_otherLength hl, exec_wrBadLength, finish_ok]

/-- `on_write` runs the row the decoder reads, once its invocation is recorded. -/
theorem exec_onWrite_eq_row (a : Byte) (s : State) :
    exec (.onWrite a) s = exec (decodeWrite s.cfg a s.inbound) (s.invoked (.onWrite a s.inbound)) := by
  simp only [exec_onWrite, onWrite, decodeWrite, State.invoked_cfg]
  cases regOf s.cfg a with
  | none => rfl
  | some r =>
    cases r with
    | angle | velocity | current => rfl
    | setpoint | p | i | d | f => exact (exec_decodeFloatWrite a _ (s.invoked _)).symm
    | mode => exact (exec_decodeModeWrite a (s.invoked _)).symm

/-- Whatever else it does, `on_write` drains the payload (R201). -/
theorem onWrite_inbound {a : Byte} {s t : State} (h : onWrite a s = .ok t) : t.inbound = [] := by
  obtain ⟨u, rfl, rfl | ⟨x, v, rfl⟩ | ⟨m, sp, _, _, _, _, -, -, rfl⟩⟩ := onWrite_effect h
  · rfl
  · rfl
  · exact State.transition_inbound _ m sp

/-- A payload of a length its selector does not expect is drained, and the invocation recorded (R212). -/
theorem exec_onWrite_lengthMismatch {a : Byte} {s : State} (h : lengthMismatch s.cfg a s.inbound = true) :
    exec (.onWrite a) s = .next ((s.invoked (.onWrite a s.inbound)).clearBuf .inbound) := by
  rw [exec_onWrite_eq_row, decodeWrite_badLength h, exec_wrBadLength]

/-! ### The statements -/

/-- Settles O18: the row is the field's setter on the drained state, and a row of the table. -/
theorem floatWritesReachActiveController : Obligations.FloatWritesReachActiveController := by
  intro x v s
  refine ⟨⟨_, exec_writeRowOf x v s, fieldWritten_setField (s.clearBuf .inbound) x v⟩, fun hok hcap => ?_⟩
  rw [selectorOfField_eq_selectorOf, wire_eq_wireF32]
  exact (WriteRow.field x v).decode_eq hok (writeRowOf_wellFormed x v hcap)

/-- Settles O19: the row is `transition_state` on the drained state; both rows of the mode selector are rows of the table. -/
theorem modeWriteSwitches : Obligations.ModeWriteSwitches := by
  intro sp m s
  simp only [wire_eq_wireF32]
  refine ⟨fun hm => ?same, fun hm => ⟨_, exec_wrMode sp m s, switched_transition (s := s.clearBuf .inbound) hm sp⟩,
    fun hok hcap => ⟨(WriteRow.mode sp m).decode_eq hok (decide_eq_true hcap), fun mb hmb => ⟨?invalid, rfl⟩⟩, rfl⟩
  case same => exact congrArg Host.Outcome.next (State.transition_of_eq (s := s.clearBuf .inbound) hm sp)
  case invalid =>
    have hnone : modeOf s.cfg mb = none := modeOf_eq_none.2 hmb
    exact (WriteRow.modeInvalid sp hnone).decode_eq hok (wrModeInvalid_wellFormed sp hnone hcap)

/-- Settles O21: the row the decoder reads does the same, and `on_write` is total and drains the payload. -/
theorem onWriteFollowsDecoder : Obligations.OnWriteFollowsDecoder := by
  intro a s
  obtain ⟨t, ht⟩ := onWrite_total a s
  refine ⟨exec_onWrite_eq_row a s, t, ?_, onWrite_inbound ht⟩
  rw [exec_onWrite, ht, finish_ok]

/-- Settles O22: such a payload is the row `WR_BAD_LENGTH`, which the callback runs. -/
theorem wrongLengthChangesNothing : Obligations.WrongLengthChangesNothing := by
  intro a s hok h
  have hmis : lengthMismatch s.cfg a s.inbound = true := by
    obtain ⟨rfl, hl⟩ | ⟨ha, hl⟩ := h
    · exact (lengthMismatch_of_regOf (regOf_selectorOf hok .mode) _).2 ⟨5, rfl, hl⟩
    · obtain ⟨x, rfl⟩ : ∃ x, a = selectorOf s.cfg (fieldReg x) := by
        obtain ha | ha | ha | ha | ha := ha
        exacts [⟨.p, ha⟩, ⟨.i, ha⟩, ⟨.d, ha⟩, ⟨.f, ha⟩, ⟨.setpoint, ha⟩]
      exact (lengthMismatch_of_regOf (regOf_selectorOf hok (fieldReg x)) _).2 ⟨4, expectedLength_fieldReg x, hl⟩
  refine ⟨exec_onWrite_lengthMismatch hmis, fun hne hfits => (WriteRow.badLength hmis).decode_eq hok ?_⟩
  exact Bool.and_eq_true_iff.2 ⟨hmis, payloadOk_iff.2 ⟨hne, hfits⟩⟩

/-- Settles O23: the payload is the row for an invalid mode byte, which the callback runs. -/
theorem invalidModeByteChangesNothing : Obligations.InvalidModeByteChangesNothing := by
  intro w0 w1 w2 w3 mb s hok hmb hb
  have hnone : modeOf s.cfg mb = none := modeOf_eq_none.2 hmb
  have hrow := writeRow_modeInvalid_bytes hnone w0 w1 w2 w3
  refine ⟨?_, _, (wire_eq_wireF32 ..).trans (wireF32_decodeF32 s.cfg.floatOrder w0 w1 w2 w3),
    fun hcap => hrow.decode_eq hok (wrModeInvalid_wellFormed _ hnone hcap)⟩
  rw [exec_onWrite_eq_row, hb, hrow.decodeWrite_eq hok, exec_wrModeInvalid]
  rfl

/-- Settles O20: each ignored row drains the payload; the four of the read-only and the unrecognized selectors are rows of
the table. -/
theorem ignoredWritesDrainOnly : Obligations.IgnoredWritesDrainOnly := by
  intro a mb p sp s
  refine ⟨rfl, rfl, rfl, rfl, exec_wrBadLength a p s, exec_wrModeInvalid sp mb s, fun hok hne hfits => ?_, rfl⟩
  have hp : payloadOk s.cfg p = true := payloadOk_iff.2 ⟨hne, hfits⟩
  refine ⟨(WriteRow.angle p).decode_eq hok hp, (WriteRow.velocity p).decode_eq hok hp,
    (WriteRow.current p).decode_eq hok hp, fun ha => ?_⟩
  have hnone := regOf_eq_none ha
  exact (WriteRow.unrecognized p hnone).decode_eq hok (Bool.and_eq_true_iff.2 ⟨Option.isNone_iff_eq_none.2 hnone, hp⟩)

end Sys2Proof.Machine

/-! ## Register reads

What a read row does by the room in `outbound` (R231 to R240), which selector the decoder reads each row from (R99, R100),
and how long the payload of a selector is (R101, R230). -/

namespace Sys2Proof.Machine

open Sys2Proof.Claims

/-! ### The read rows (R152, R155, R231 to R240) -/

theorem exec_rdMode (s : State) : exec .rdMode s = finish (readByte (modeEnc s.cfg s.mode) s) := rfl

theorem exec_rdAngle (s : State) : exec .rdAngle s = finish (readFloat s.angle s) := rfl

theorem exec_rdVelocity (s : State) : exec .rdVelocity s = finish (readFloat s.velocity s) := rfl

theorem exec_rdCurrent (s : State) : exec .rdCurrent s = finish (readFloat s.currentReading s) := rfl

theorem exec_rdUnrecognized (a : Byte) (s : State) :
    exec (.rdUnrecognized a) s = finish (readByte s.cfg.sentinel s) := rfl

theorem exec_onRead (a : Byte) (s : State) : exec (.onRead a) s = finish (onRead a s) := rfl

/-- A row that reads a float, where `outbound` has room for it, as the statements write its effect. -/
theorem finish_readFloat_ok (v : F32) {s : State} (h : s.outbound.length + 4 ≤ s.cfg.capacity) :
    finish (readFloat v s) = .next { s with outbound := s.outbound ++ wire s.cfg.floatOrder v } := by
  rw [readFloat_ok v h, finish_ok, wire_eq_wireF32]
  rfl

theorem finish_readFloat_full (v : F32) {s : State} (h : s.cfg.capacity < s.outbound.length + 4)
    (hle : s.outbound.length ≤ s.cfg.capacity) : finish (readFloat v s) = .fault .pushFull := by
  rw [readFloat_full v h hle, finish_error]

/-- A row that reads one byte, where `outbound` has room for it, as the statements write its effect. -/
theorem finish_readByte_ok (v : Byte) {s : State} (h : s.outbound.length ≠ s.cfg.capacity) :
    finish (readByte v s) = .next { s with outbound := s.outbound ++ [v] } := by
  rw [readByte_ok v h, finish_ok]
  rfl

theorem finish_readByte_full (v : Byte) {s : State} (h : s.outbound.length = s.cfg.capacity) :
    finish (readByte v s) = .fault .pushFull := by
  rw [readByte_full v h, finish_error]

/-! ### The selectors of an accepted configuration and the rows read from them (R99, R100, R112) -/

/-- The decoder reads a register's row from the register's selector. -/
theorem decode_read_selectorOf {c : Config} (hok : c.ok = true) (r : Reg) :
    decode c (.read (selectorOf c r)) = .ok (readRow r) :=
  decode_read_named (regOf_selectorOf hok r)

theorem readRow_fieldReg (x : PidField) : readRow (fieldReg x) = readRowOf x := by
  cases x <;> rfl

/-- The nine selectors are those of the nine registers. -/
theorem exists_selectorOf_of_mem {c : Config} {a : Byte} (h : a ∈ c.selectors) : ∃ r, a = selectorOf c r := by
  simp only [Config.selectors, List.mem_cons, List.not_mem_nil, or_false] at h
  obtain h | h | h | h | h | h | h | h | h := h
  exacts [⟨.setpoint, h⟩, ⟨.mode, h⟩, ⟨.p, h⟩, ⟨.i, h⟩, ⟨.d, h⟩, ⟨.f, h⟩, ⟨.angle, h⟩, ⟨.velocity, h⟩, ⟨.current, h⟩]

theorem mem_selectors_iff {c : Config} (hok : c.ok = true) {a : Byte} : a ∈ c.selectors ↔ (regOf c a).isSome := by
  rw [Option.isSome_iff_exists]
  constructor
  · intro ha
    obtain ⟨r, rfl⟩ := exists_selectorOf_of_mem ha
    exact ⟨r, regOf_selectorOf hok r⟩
  · rintro ⟨r, hr⟩
    exact selectorOf_of_regOf hr ▸ selectorOf_mem_selectors c r

theorem eq_selMode_iff {c : Config} (hok : c.ok = true) {a : Byte} : a = c.selMode ↔ regOf c a = some .mode :=
  ⟨fun ha => ha ▸ regOf_selectorOf hok .mode, fun hr => (selectorOf_of_regOf hr).symm⟩

/-! ### The length of a payload (R101, R230) -/

/-- The mode and the sentinel are one byte, every other register a float. -/
theorem regPayload_length (s : State) (r : Option Reg) :
    (regPayload s r).length = if r.isSome ∧ r ≠ some .mode then 4 else 1 := by
  cases r with
  | none => simp [regPayload]
  | some q =>
    cases q with
    | mode => simp [regPayload]
    | setpoint | p | i | d | f | angle | velocity | current => simp [regPayload, wireF32_length]

/-! ### The statements -/

/-- Settles O24: a float's row and a byte's row, each by the room in `outbound`; every row is a row of the table. -/
theorem readRowsPushPayload : Obligations.ReadRowsPushPayload := by
  intro a s
  simp only [exec_readRowOf, exec_rdMode, exec_rdAngle, exec_rdVelocity, exec_rdCurrent, exec_rdUnrecognized,
    selectorOfField_eq_selectorOf, fieldOf_eq_pidField]
  refine ⟨fun hroom => ?float_room, fun hshort hle => ?float_full, fun hroom => ?byte_room, fun hfull => ?byte_full,
    fun hok => ?decoded, rfl, rfl, rfl⟩
  case float_room =>
    exact ⟨fun x => finish_readFloat_ok _ hroom, finish_readFloat_ok _ hroom, finish_readFloat_ok _ hroom,
      finish_readFloat_ok _ hroom⟩
  case float_full =>
    exact ⟨fun x => finish_readFloat_full _ hshort hle, finish_readFloat_full _ hshort hle,
      finish_readFloat_full _ hshort hle, finish_readFloat_full _ hshort hle⟩
  case byte_room => exact ⟨finish_readByte_ok _ hroom, finish_readByte_ok _ hroom⟩
  case byte_full => exact ⟨finish_readByte_full _ hfull, finish_readByte_full _ hfull⟩
  case decoded =>
    refine ⟨fun x => ?_, decode_read_selectorOf hok .mode, decode_read_selectorOf hok .angle,
      decode_read_selectorOf hok .velocity, decode_read_selectorOf hok .current,
      fun ha => decode_read_unnamed (regOf_eq_none ha)⟩
    rw [decode_read_selectorOf hok, readRow_fieldReg]

/-- Settles O25: the payload is at most four bytes, so it has room; its length is that of the register the selector names. -/
theorem onReadPushesPayload : Obligations.OnReadPushesPayload := by
  intro a s hok hroom
  have hfits : s.outbound.length + (readPayload s a).length ≤ s.cfg.capacity :=
    (Nat.add_le_add_left (readPayload_length_le_four s a) _).trans hroom
  refine ⟨?pushed, ?length⟩
  case pushed =>
    rw [exec_onRead, onRead_ok hfits]
    rfl
  case length =>
    rw [readPayload_eq_regPayload, regPayload_length]
    exact if_congr (and_congr (mem_selectors_iff hok).symm (not_congr (eq_selMode_iff hok).symm)) rfl rfl

end Sys2Proof.Machine

/-! ## The Device Control State

What a setter, a mode switch, the control law and a tick do to each controller (R260 to R266, R278, R282, R290 to R294), and
that the readings of the encoder are exact in binary32 (R42, R274, R275). Last, what a step can do to the bank: a gain
changes only by its write (R268), and only the control law advances an accumulator (R278). -/

namespace Sys2Proof.Machine

open Sys2Proof.Claims

/-! ### The instructions in terms of the state's operations -/

theorem exec_setterOf (x : PidField) (v : F32) (s : State) : exec (setterOf x v) s = .next (s.setField x v) := by
  cases x <;> rfl

theorem exec_getterOf (x : PidField) (s : State) :
    exec (getterOf x) s = .next (s.returning (.f32 (pidField s.active x))) := by
  cases x <;> rfl

theorem exec_getAngle (s : State) : exec .getAngle s = .next (s.returning (.f32 s.angle)) := rfl

theorem exec_getVel (s : State) : exec .getVel s = .next (s.returning (.f32 s.velocity)) := rfl

theorem exec_transitionState (m : Mode) (sp : F32) (s : State) :
    exec (.transitionState m sp) s = .next (s.transition m sp) := rfl

theorem exec_getOutput (s : State) : exec .getOutput s = .next (s.output.2.returning (.f32 s.output.1)) := rfl

theorem exec_tick (e : U16) (x : F32) (s : State) : exec (.tick e x) s = .next (s.ticked e x) := rfl

/-! ### What a setter, a mode switch and the control law do to each controller -/

/-- A setter writes the one field of the active controller (R262 to R266). -/
theorem State.setField_field (s : State) (x : PidField) (v : F32) (m : Mode) (y : PidField) :
    pidField ((s.setField x v).pid.get m) y = if m = s.mode ∧ y = x then v else pidField (s.pid.get m) y := by
  by_cases hm : m = s.mode
  · subst hm
    by_cases hy : y = x
    · subst hy; simp
    · simp [hy, pidSet_field_ne _ _ _ _ hy]
  · simp [hm, perMode_get_set_ne _ _ hm]

/-- A mode switch leaves every gain (R260). -/
theorem State.transition_gain (s : State) (m : Mode) (sp : F32) (m' : Mode) {y : PidField} (hy : y ≠ .setpoint) :
    pidField ((s.transition m sp).pid.get m') y = pidField (s.pid.get m') y := by
  rw [State.transition_pid]
  split
  · rfl
  · by_cases hm : m' = m
    · rw [hm, perMode_get_set_self, pidSet_field_ne _ _ _ _ hy, pidReset_field]
    · rw [perMode_get_set_ne _ _ hm]

/-- A mode switch leaves the controllers it does not enter (R260). -/
theorem State.transition_pid_of_ne (s : State) {m m' : Mode} (h : m' ≠ m) (sp : F32) :
    (s.transition m sp).pid.get m' = s.pid.get m' := by
  rw [State.transition_pid]
  split
  · rfl
  · rw [perMode_get_set_ne _ _ h]

/-- `get_output` leaves every gain and every setpoint (R278). -/
theorem State.output_field (s : State) (m : Mode) (y : PidField) :
    pidField (s.output.2.pid.get m) y = pidField (s.pid.get m) y := by
  by_cases hm : m = s.mode
  · subst hm; simp
  · simp [perMode_get_set_ne _ _ hm]

/-- `get_output` leaves the controllers that are not active (R278). -/
theorem State.output_pid_of_ne (s : State) {m : Mode} (hm : m ≠ s.mode) : s.output.2.pid.get m = s.pid.get m := by
  rw [State.output_snd_pid, perMode_get_set_ne _ _ hm]

/-- The output and the new accumulator are what the control law makes of the active controller and the metric (R294). -/
theorem State.output_eq_law (s : State) :
    (s.output.1, (s.output.2.pid.get s.mode).acc) =
      Config.pidOutput s.cfg.pidLaw (s.pid.get s.mode).p (s.pid.get s.mode).i (s.pid.get s.mode).d (s.pid.get s.mode).f
        (s.pid.get s.mode).setpoint (s.pid.get s.mode).acc (s.cfg.pidClamp.get s.mode) s.metric := by
  rw [State.output_snd_pid, perMode_get_set_self]
  rfl

/-- What a switch to another mode makes of the state (R260, R291, R292). -/
theorem State.transition_of_ne {s : State} {m : Mode} (h : m ≠ s.mode) (sp : F32) :
    s.transition m sp =
      ({ s with mode := m }).setPid m (pidSet s.cfg m .setpoint sp (pidReset s.cfg (s.getPid m))) := by
  simp [State.transition, h, State.getPid, State.setPid]

/-- The controller entered loses the accumulator it had (R261). -/
theorem State.transition_setPid_acc {s : State} {m : Mode} (h : m ≠ s.mode) (sp : F32) (a : PidAcc) :
    (s.setPid m { s.getPid m with acc := a }).transition m sp = s.transition m sp := by
  rw [State.transition_of_ne h, State.transition_of_ne (s := s.setPid m _) h]
  simp [State.setPid, State.getPid, pidReset]

theorem perMode_set_comm {α : Type} (b : PerMode α) {m m' : Mode} (x y : α) (h : m ≠ m') :
    (b.set m x).set m' y = (b.set m' y).set m x := by
  refine perMode_ext fun k => ?_
  by_cases hk : k = m'
  · rw [hk, perMode_get_set_self, perMode_get_set_ne _ _ h.symm, perMode_get_set_self]
  · by_cases hkm : k = m
    · rw [perMode_get_set_ne _ _ hk, hkm, perMode_get_set_self, perMode_get_set_self]
    · rw [perMode_get_set_ne _ _ hk, perMode_get_set_ne _ _ hkm, perMode_get_set_ne _ _ hkm, perMode_get_set_ne _ _ hk]

/-- A mode switch does not see the controllers it does not enter. -/
theorem State.transition_setPid_of_ne {s : State} {m k : Mode} (h : m ≠ s.mode) (hk : m ≠ k) (sp : F32) (q : Pid) :
    (s.setPid k q).transition m sp = (s.transition m sp).setPid k q := by
  rw [State.transition_of_ne h, State.transition_of_ne (s := s.setPid k q) h]
  simp [State.setPid, State.getPid, perMode_get_set_ne _ _ hk, perMode_set_comm _ _ _ hk]

/-- The mask has no part in the output. -/
theorem State.output_setIM (s : State) (b : Bool) : (s.setIM b).output = (s.output.1, s.output.2.setIM b) := rfl

/-- A tick drives what `get_output` returns on the sampled state, and leaves the bank as `get_output` does (R282). -/
theorem State.ticked_eq (s : State) (e : U16) (x : F32) :
    s.ticked e x = ((s.sample e x).output.2.drive (s.sample e x).output.1).setIM false := by
  change (((s.sample e x).setIM true).output.2.drive ((s.sample e x).setIM true).output.1).setIM false = _
  rw [State.output_setIM]
  rfl

/-! ### The default hook (R292, R293; D15) -/

section
variable {s : State} (hook : s.cfg.pidOnSet = .keepAcc)
include hook

theorem pidSet_acc_of_keepAcc (m : Mode) (x : PidField) (v : F32) (q : Pid) : (pidSet s.cfg m x v q).acc = q.acc := by
  rw [pidSet_acc, hookResult, hook]

theorem State.setField_acc (x : PidField) (v : F32) (m : Mode) :
    ((s.setField x v).pid.get m).acc = (s.pid.get m).acc := by
  rw [State.setField_pid]
  by_cases hm : m = s.mode
  · rw [hm, perMode_get_set_self, pidSet_acc_of_keepAcc hook]
  · rw [perMode_get_set_ne _ _ hm]

/-- A switch to another mode leaves `PID_ACC0` in the controller entered (R260, R291). -/
theorem State.transition_acc_entered {m : Mode} (h : m ≠ s.mode) (sp : F32) :
    ((s.transition m sp).pid.get m).acc = s.cfg.pidAcc0 := by
  rw [State.transition_pid, if_neg h, perMode_get_set_self, pidSet_acc_of_keepAcc hook, pidReset_acc]

end

/-! ### The sensor readings as numbers (R42, R274, R275) -/

section
variable (sign : Bool) (e : BitVec 8) (frac : BitVec 23)

/-- The pattern of a sign, an exponent and a fraction, as `f32Sixteenths` puts it together (R42). -/
def f32Pattern : F32 := BitVec.ofBool sign ++ e ++ frac

/-- The fraction is the low 23 bits, the exponent the eight above it, the sign the top bit. -/
theorem f32Pattern_getLsbD (i : ℕ) :
    (f32Pattern sign e frac).getLsbD i =
      if i < 23 then frac.getLsbD i
      else if i - 23 < 8 then e.getLsbD (i - 23) else (BitVec.ofBool sign).getLsbD (i - 31) := by
  have happend := BitVec.getLsbD_append (x := BitVec.ofBool sign ++ e) (y := frac) (i := i)
  rwa [BitVec.getLsbD_append (x := BitVec.ofBool sign), Nat.sub_sub] at happend

theorem f32Pattern_sign : (f32Pattern sign e frac).getLsbD 31 = sign := by
  rw [f32Pattern_getLsbD]
  simp

theorem f32Pattern_exponent : (f32Pattern sign e frac).extractLsb' 23 8 = e := by
  ext i hi
  simp [f32Pattern_getLsbD, hi]

theorem f32Pattern_fraction : (f32Pattern sign e frac).extractLsb' 0 23 = frac := by
  ext i hi
  simp [f32Pattern_getLsbD, hi]

/-- A normal pattern denotes its sign, its fraction with the hidden bit before it, and its exponent. -/
theorem f32Denotes_f32Pattern (hpos : e.toNat ≠ 0) (hfin : e.toNat ≠ 255) :
    f32Denotes (f32Pattern sign e frac) =
      some ((if sign then -1 else 1) * (2 ^ 23 + frac.toNat : ℕ) * (2 : ℚ) ^ ((e.toNat : ℤ) - 150)) := by
  rw [f32Denotes, f32Pattern_sign, f32Pattern_exponent, f32Pattern_fraction]
  exact (if_neg hfin).trans (if_neg hpos)

end

/-- The sixteenths of a natural are a normal pattern: the leading one is the hidden bit, and the bits below it stand at the
top of the fraction. -/
theorem f32Sixteenths_eq_pattern (negative : Bool) {n : ℕ} (hn : n ≠ 0) :
    f32Sixteenths negative n =
      f32Pattern negative (BitVec.ofNat 8 (127 + n.log2 - 4)) (BitVec.ofNat 23 ((n - 2 ^ n.log2) * 2 ^ (23 - n.log2))) :=
  if_neg hn

/-- The bits below the leading one, moved to the top of the fraction, leave none over. -/
theorem f32Fraction_lt {n e : ℕ} (hlt : n < 2 ^ (e + 1)) (he : e ≤ 23) : (n - 2 ^ e) * 2 ^ (23 - e) < 2 ^ 23 := by
  have hrest : n - 2 ^ e < 2 ^ e := by rw [pow_succ] at hlt; omega
  calc (n - 2 ^ e) * 2 ^ (23 - e) < 2 ^ e * 2 ^ (23 - e) := Nat.mul_lt_mul_of_pos_right hrest (Nat.two_pow_pos _)
    _ = 2 ^ 23 := by rw [← pow_add, Nat.add_sub_cancel' he]

/-- With the hidden bit before it the fraction is the number itself, moved by 23 bits less its exponent. -/
theorem hiddenBit_add_fraction {n e : ℕ} (hle : 2 ^ e ≤ n) (he : e ≤ 23) :
    2 ^ 23 + (n - 2 ^ e) * 2 ^ (23 - e) = n * 2 ^ (23 - e) := by
  rw [Nat.sub_mul, ← pow_add, Nat.add_sub_cancel' he, Nat.add_sub_cancel']
  calc 2 ^ 23 = 2 ^ e * 2 ^ (23 - e) := by rw [← pow_add, Nat.add_sub_cancel' he]
    _ ≤ n * 2 ^ (23 - e) := Nat.mul_le_mul_right _ hle

/-- The shift of the significand and the exponent of the pattern make the division by 16. -/
theorem shifted_mul_exponent (n : ℕ) {e : ℕ} (he : e ≤ 23) :
    ((n * 2 ^ (23 - e) : ℕ) : ℚ) * (2 : ℚ) ^ (((123 + e : ℕ) : ℤ) - 150) = n / 16 := by
  have hexp : ((23 - e : ℕ) : ℤ) + (((123 + e : ℕ) : ℤ) - 150) = -4 := by omega
  rw [Nat.cast_mul, Nat.cast_pow, Nat.cast_ofNat, mul_assoc, ← zpow_natCast, ← zpow_add₀ two_ne_zero, hexp]
  norm_num [div_eq_mul_inv]

/-- Below 2^24 the pattern denotes the sixteenths exactly. -/
theorem f32Denotes_f32Sixteenths (negative : Bool) {n : ℕ} (hn : n < 2 ^ 24) :
    f32Denotes (f32Sixteenths negative n) = some ((if negative then -1 else 1) * ((n : ℚ) / 16)) := by
  by_cases hzero : n = 0
  · subst hzero
    simp [f32Sixteenths, f32Denotes]
  · have he : n.log2 ≤ 23 := Nat.lt_succ_iff.1 ((Nat.log2_lt hzero).2 hn)
    have hle : 2 ^ n.log2 ≤ n := Nat.log2_self_le hzero
    have hexp : (BitVec.ofNat 8 (127 + n.log2 - 4)).toNat = 123 + n.log2 := by rw [BitVec.toNat_ofNat]; omega
    have hfrac := Nat.mod_eq_of_lt (f32Fraction_lt Nat.lt_log2_self he)
    rw [f32Sixteenths_eq_pattern negative hzero, f32Denotes_f32Pattern _ _ _ (by omega) (by omega), hexp,
      BitVec.toNat_ofNat, hfrac, hiddenBit_add_fraction hle he, mul_assoc, shifted_mul_exponent n he]

theorem f32Denotes_f32OfSixteenths {d : ℤ} (hd : d.natAbs < 2 ^ 24) :
    f32Denotes (f32OfSixteenths d) = some ((d : ℚ) / 16) := by
  rw [f32OfSixteenths, f32Denotes_f32Sixteenths _ hd, Nat.cast_natAbs]
  by_cases hneg : d < 0
  · simp [hneg, abs_of_neg hneg, neg_div]
  · simp [hneg, abs_of_nonneg (not_lt.1 hneg)]

/-! ### The statements about the operations -/

/-- Settles O9: the call is the setter on the active controller. -/
theorem settersWriteActiveController : Obligations.SettersWriteActiveController :=
  fun x v s => ⟨_, exec_setterOf x v s, fieldWritten_setField s x v⟩

/-- Settles O10: each getter returns what the state holds and records nothing else. -/
theorem gettersReturnStoredValues : Obligations.GettersReturnStoredValues := by
  intro s
  refine ⟨fun x => ?field, rfl, rfl⟩
  case field =>
    rw [exec_getterOf, fieldOf_eq_pidField]
    rfl

/-- Settles O11: the encoder sample is below 2^16. -/
theorem angleIsExactSixteenths : Obligations.AngleIsExactSixteenths := by
  intro s
  refine ⟨s.angle, exec_getAngle s, ?denotes, fun hzero => ?zero⟩
  case denotes =>
    have hlt := s.currentEncoder.isLt
    exact f32Denotes_f32OfSixteenths (d := s.currentEncoder.toNat) (by omega)
  case zero => rw [State.angle, hzero]; rfl

/-- Settles O12: the samples differ by less than 2^16, in either direction. -/
theorem velocityIsExactDifference : Obligations.VelocityIsExactDifference := by
  intro s
  refine ⟨s.velocity, exec_getVel s, ?denotes, fun heq => ?zero⟩
  case denotes =>
    have hcur := s.currentEncoder.isLt
    have hprev := s.prevEncoder.isLt
    rw [State.velocity, f32Denotes_f32OfSixteenths (by omega)]
    push_cast
    rfl
  case zero => rw [State.velocity, heq, Int.sub_self]; rfl

/-- Settles O13: by whether the mode is the present one. -/
theorem transitionSwitchesMode : Obligations.TransitionSwitchesMode := by
  intro m sp s
  rw [exec_transitionState]
  exact ⟨fun hm => congrArg Host.Outcome.next (State.transition_of_eq hm sp),
    fun hm => ⟨_, rfl, switched_transition hm sp⟩⟩

/-- Settles O14: the switch away does not see the accumulator, and the switch back resets it. -/
theorem switchBackForgetsAccumulator : Obligations.SwitchBackForgetsAccumulator := by
  intro s a m sp1 sp2 hm
  have haway : (s.setPid s.mode { s.getPid s.mode with acc := a }).transition m sp1 =
      (s.transition m sp1).setPid s.mode { (s.transition m sp1).getPid s.mode with acc := a } := by
    rw [State.transition_setPid_of_ne hm hm, State.getPid, State.getPid, State.transition_pid_of_ne s hm.symm]
  have hback : s.mode ≠ (s.transition m sp1).mode := by rw [State.transition_mode]; exact hm.symm
  refine ⟨_, _, _, exec_transitionState m sp1 s, exec_transitionState s.mode sp2 _, exec_transitionState m sp1 _, ?_⟩
  rw [exec_transitionState, ← State.transition_setPid_acc hback sp2 a, ← haway]
  rfl

/-- Settles O15: the default hook gives back the accumulator it is given, which a switch has reset before. -/
theorem defaultHookKeepsAccumulator : Obligations.DefaultHookKeepsAccumulator := by
  intro x v sp m s hook
  refine ⟨⟨_, exec_setterOf x v s, State.setField_acc hook x v⟩,
    fun hm => ⟨_, exec_transitionState m sp s, State.transition_acc_entered hook hm sp, fun m' hm' => ?others⟩⟩
  case others => rw [State.transition_pid_of_ne s hm']

/-- Settles O16: the control law's two results are the value returned and the accumulator stored. -/
theorem outputAdvancesAccumulatorOnly : Obligations.OutputAdvancesAccumulatorOnly := by
  intro s
  simp only [fieldOf_eq_pidField]
  exact ⟨_, _, exec_getOutput s, s.output_eq_law, rfl, s.output_field, fun m => s.output_pid_of_ne, rfl⟩

/-- Settles O17: the mask, which the tick sets first, has no part in the output. -/
theorem tickSamplesAndDrives : Obligations.TickSamplesAndDrives := by
  intro e x s
  simp only [fieldOf_eq_pidField]
  refine ⟨_, _, _, exec_tick e x s, exec_getOutput (s.sample e x), rfl, ?_⟩
  rw [State.ticked_eq]
  exact ⟨rfl, rfl, rfl, rfl, rfl, rfl, (s.sample e x).output_field, rfl⟩

/-! ### What an event does to the bank of controllers -/

/-- An event writes the bank only at the end of a write, through `on_write` (R169). -/
theorem EventEffect.pid {s t : State} {c : EventClass} (h : EventEffect s c t) :
    t.pid = s.pid ∨
      (c = .stopOrRestart ∧ ∃ u, onWrite s.address s = .ok u ∧ t.pid = u.pid ∧ t.mode = u.mode) := by
  cases h with
  | addressed | captured | stored | overflowed | dropped | ignored | readEnded => exact .inl rfl
  | @stopped u hu =>
    obtain ⟨-, rfl⟩ | ⟨-, hw⟩ := hu
    · exact .inl rfl
    · exact .inr ⟨rfl, u, hw, rfl, rfl⟩
  | @transmitted _ u _ hu ht =>
    have hkept : u.pid = s.pid := by
      obtain ⟨-, rfl⟩ | ⟨-, hr⟩ := hu
      · rfl
      · obtain rfl := onRead_eq_ok hr
        rfl
    obtain ⟨-, rfl⟩ | ⟨w, rest, -, rfl⟩ := evTransmit_eq_ok ht <;> exact .inl hkept

/-! ### A gain changes only by its write (R268) -/

/-- A gain that `on_write` changes is the active controller's, named by the selector, and the payload is its new pattern. -/
theorem onWrite_gain {a : Byte} {s t : State} {m : Mode} {y : PidField} (h : onWrite a s = .ok t) (hy : y ≠ .setpoint)
    (hne : pidField (t.pid.get m) y ≠ pidField (s.pid.get m) y) :
    a = selectorOf s.cfg (fieldReg y) ∧ s.mode = m ∧
      s.inbound = wireF32 s.cfg.floatOrder (pidField (t.pid.get m) y) := by
  have hx : exec (decodeWrite s.cfg a s.inbound) (s.invoked (.onWrite a s.inbound)) = .next t := by
    rw [← exec_onWrite_eq_row, exec_onWrite, h, finish_ok]
  have hrow := writeRow_decodeWrite s.cfg a s.inbound
  generalize decodeWrite s.cfg a s.inbound = i at hx hrow
  generalize s.inbound = p at hx hrow ⊢
  cases hrow with
  | field x v =>
    rw [exec_writeRowOf] at hx
    cases hx
    rw [State.setField_field] at hne ⊢
    by_cases hxy : m = s.mode ∧ y = x
    · obtain ⟨rfl, rfl⟩ := hxy
      exact ⟨rfl, rfl, by rw [if_pos ⟨rfl, rfl⟩]⟩
    · exact absurd (if_neg hxy) hne
  | mode sp m' =>
    cases hx
    exact absurd (State.transition_gain _ m' sp m hy) hne
  | modeInvalid | angle | velocity | current | unrecognized | badLength =>
    cases hx
    exact absurd rfl hne

/-- Settles O44: a tick leaves the gains, and an event changes one only through `on_write`. -/
theorem gainChangesOnlyByItsWrite : Obligations.GainChangesOnlyByItsWrite := by
  intro s t r rest m y _ hp him hn h hy hne
  rw [fieldOf_eq_pidField, fieldOf_eq_pidField] at hne
  rw [selectorOfField_eq_selectorOf, fieldOf_eq_pidField, wire_eq_wireF32]
  obtain ⟨sc, d, rfl⟩ | ⟨e, x, rfl⟩ := isNative_iff.1 hn
  · obtain hkept | ⟨hc, u, hw, hpid, -⟩ := (step_event_effect hp him h).pid
    · rw [hkept] at hne
      exact absurd rfl hne
    · rw [hpid] at hne ⊢
      exact ⟨sc, d, rfl, hc, onWrite_gain (s := { s with pending := rest, out := {}, dr := d }) hw hy hne⟩
  · obtain rfl := step_tick_eq hp him h
    exact absurd (State.ticked_field _ e x m y) hne

/-! ### What an instruction does to the bank of controllers -/

/-- What every instruction but `get_output` and `tick` does to the bank: nothing, one setter, or a mode switch. -/
inductive BankEffect (s t : State) : Prop where
  | kept (h : t.pid = s.pid)
  | written (x : PidField) (v : F32) (h : t.pid = (s.setField x v).pid)
  | switched (sp : F32) (h : t.pid = (s.transition t.mode sp).pid)

/-- A switch that starts from the same bank, mode and configuration. -/
theorem BankEffect.of_transition {s u : State} {m : Mode} {sp : F32} (hpid : u.pid = s.pid) (hmode : u.mode = s.mode)
    (hcfg : u.cfg = s.cfg) : BankEffect s (u.transition m sp) :=
  .switched sp (by rw [State.transition_mode, State.transition_pid, State.transition_pid, hpid, hmode, hcfg])

theorem onWrite_bank {a : Byte} {s t : State} (h : onWrite a s = .ok t) : BankEffect s t := by
  obtain ⟨u, rfl, rfl | ⟨x, v, rfl⟩ | ⟨m, sp, _, _, _, _, -, -, rfl⟩⟩ := onWrite_effect h
  · exact .kept rfl
  · exact .written x v rfl
  · exact .of_transition rfl rfl rfl

theorem EventEffect.bank {s t : State} {c : EventClass} (h : EventEffect s c t) : BankEffect s t := by
  obtain hkept | ⟨-, u, hw, hpid, hmode⟩ := h.pid
  · exact .kept hkept
  · cases onWrite_bank hw with
    | kept h => exact .kept (hpid.trans h)
    | written x v h => exact .written x v (hpid.trans h)
    | switched sp h => exact .switched sp (hmode ▸ hpid.trans h)

theorem evOverflow_pid (s : State) : (evOverflow s).pid = s.pid := by
  cases hp : s.cfg.overflowPolicy with
  | discard => rw [evOverflow_discard hp]; rfl
  | deliverFirst64 => rw [evOverflow_deliverFirst64 hp]; rfl

theorem BankEffect.of_next {s u t : State} (h : (.next u : Host.Outcome State Fault Refusal) = .next t)
    (hu : u.pid = s.pid) : BankEffect s t := by
  cases h; exact .kept hu

/-- An operation that puts a content back into a buffer leaves the bank. -/
theorem BankEffect.of_finish_map {α : Type} {s t : State} {r : Except Fault α} {f : α → State}
    (h : finish (r.map f) = .next t) (hf : ∀ x, (f x).pid = s.pid) : BankEffect s t := by
  obtain ⟨x, -, rfl⟩ := finish_map_eq_next h
  exact .kept (hf x)

theorem State.setBuf_pid (s : State) (b : Buf) (x : List Byte) : (s.setBuf b x).pid = s.pid := by
  cases b <;> rfl

/-- The instructions that run the control law (R278, R282). -/
def RunsControlLaw (i : Instr) : Prop := i = .getOutput ∨ ∃ e x, i = .tick e x

/-- Every other instruction has one of the three effects on the bank. -/
theorem exec_bank {i : Instr} {s t : State} (hi : ¬ RunsControlLaw i) (h : exec i s = .next t) : BankEffect s t := by
  cases i with
  -- bus events
  | slaW | gcW | rxDataAckAddressing | rxDataAckGcAddressing | rxDataAckIdle | rxDataAckGcIdle | gcDataNack
  | txDataNack | busError | other => exact .of_next h rfl
  | rxDataAckOverflow | rxDataAckGcOverflow => exact .of_next h (evOverflow_pid s)
  | rxDataAckWriting | rxDataAckGcWriting =>
    obtain ⟨-, rfl⟩ := evPayload_eq_ok (finish_eq_next h)
    exact .kept rfl
  | rxDataNack => cases h; exact (evDataNack_effect s).bank
  | stopOrRestart =>
    obtain ⟨u, hu, rfl⟩ := evStop_eq_ok (finish_eq_next h)
    exact (EventEffect.stopped hu).bank
  | slaR =>
    obtain ⟨u, hu, ht⟩ := evStartRead_eq_ok (finish_eq_next h)
    exact (EventEffect.transmitted (.inr ⟨rfl, hu⟩) ht).bank
  | txDataAck => exact (EventEffect.transmitted (.inl ⟨rfl, rfl⟩) (finish_eq_next h)).bank
  -- register writes and reads
  | wrSetpoint | wrP | wrI | wrD | wrF => cases h; exact .written _ _ rfl
  | wrMode sp m => cases h; exact .of_transition (u := s.clearBuf .inbound) rfl rfl rfl
  | wrAngle | wrVelocity | wrCurrent | wrUnrecognized | wrBadLength | wrModeInvalid => exact .of_next h rfl
  | rdSetpoint | rdMode | rdP | rdI | rdD | rdF | rdAngle | rdVelocity | rdCurrent | rdUnrecognized =>
    exact .of_finish_map h fun x => s.setBuf_pid .outbound x
  -- the entry point and the callbacks
  | serve sc => exact (serve_effect (finish_eq_next h)).bank
  | onWrite a => exact onWrite_bank (finish_eq_next h)
  | onRead a =>
    obtain rfl := onRead_eq_ok (finish_eq_next h)
    exact .kept rfl
  -- device operations
  | transitionState m sp => cases h; exact .of_transition rfl rfl rfl
  | setP | setI | setD | setF | setSetpoint => cases h; exact .written _ _ rfl
  | getP | getI | getD | getF | getSetpoint | getMode | getAngle | getVel | getCurrent => exact .of_next h rfl
  | getOutput => exact absurd (.inl rfl) hi
  | tick e x => exact absurd (.inr ⟨e, x, rfl⟩) hi
  -- ring buffers and the codec
  | rbSize | rbFull | rbEmpty | encodeF32 | decodeF32 => exact .of_next h rfl
  | rbClear b => exact .of_next h (s.setBuf_pid b [])
  | rbPushBack b | rbPushFront b | rbPopFront b | rbPopBack b | pushFloat b | popFloat b =>
    exact .of_finish_map h fun x => s.setBuf_pid b _
  | pushBytePopByte b op =>
    cases op with
    | push | pop => exact .of_finish_map h fun x => s.setBuf_pid b _

/-- With the default hook the three effects keep an accumulator, or put `PID_ACC0` into the controller entered. -/
theorem BankEffect.acc {s t : State} (h : BankEffect s t) (hook : s.cfg.pidOnSet = .keepAcc) (m : Mode) :
    (t.pid.get m).acc = (s.pid.get m).acc ∨ (m ≠ s.mode ∧ t.mode = m ∧ (t.pid.get m).acc = s.cfg.pidAcc0) := by
  cases h with
  | kept h => exact .inl (by rw [h])
  | written x v h => exact .inl (by rw [h, State.setField_acc hook])
  | switched sp h =>
    rw [h]
    by_cases hm : m = t.mode
    · by_cases hs : m = s.mode
      · rw [State.transition_of_eq (hm.symm.trans hs)]
        exact .inl rfl
      · rw [← hm]
        exact .inr ⟨hs, rfl, State.transition_acc_entered hook hs sp⟩
    · exact .inl (by rw [State.transition_pid_of_ne s hm])

/-! ### Only the control law advances an accumulator (R278) -/

/-- What the decoder reads as a called instruction is a call of it: no event and no register operation encodes one (R116). -/
theorem request_eq_call {s : State} {r : Request} {i : Instr} (h : decode s.cfg (fetch s r) = .ok i)
    (hi : i.space = .call) : r = .call i := by
  cases r with
  | event sc d =>
    obtain rfl := Except.ok.inj h
    rw [decodeEvent_space] at hi
    cases hi
  | regWrite =>
    obtain ⟨-, he⟩ := encode_decode_write h
    cases (encode_of_call hi).symm.trans he
  | regRead =>
    obtain ⟨-, he⟩ := encode_decode_read h
    cases (encode_of_call hi).symm.trans he
  | call j => rw [eq_of_decode_call h]

theorem State.deliver_pid (s : State) (r : Request) (rest : List Request) : (s.deliver r rest).pid = s.pid := by
  cases r <;> rfl

theorem State.deliver_mode (s : State) (r : Request) (rest : List Request) : (s.deliver r rest).mode = s.mode := by
  cases r <;> rfl

/-- `get_output` and `tick` leave the controllers that are not active (R278, R282). -/
theorem exec_law_pid_of_ne {i : Instr} {s t : State} (hi : RunsControlLaw i) (h : exec i s = .next t) {m : Mode}
    (hm : m ≠ s.mode) : t.pid.get m = s.pid.get m := by
  obtain rfl | ⟨e, x, rfl⟩ := hi
  · cases h
    exact s.output_pid_of_ne hm
  · cases h
    exact ((s.setIM true).sample e x).output_pid_of_ne hm

/-- Settles O58: a step clears the outputs, or executes one instruction, on the bank and in the mode it finds. -/
theorem onlyOutputAdvancesAccumulator : Obligations.OnlyOutputAdvancesAccumulator := by
  intro s t m hook h
  obtain ⟨-, ⟨-, rfl⟩ | ⟨r, rest, hp, ⟨-, rfl⟩ | ⟨-, i, hd, hx⟩⟩⟩ := step_eq_next h
  · exact .inl rfl
  · exact .inl rfl
  · have hpid := s.deliver_pid r rest
    have hmode := s.deliver_mode r rest
    by_cases hi : RunsControlLaw i
    · by_cases hm : m = s.mode
      · refine .inr (.inr ⟨hm, rest, ?_⟩)
        obtain rfl | ⟨e, x, rfl⟩ := hi
        · exact .inl (by rw [hp, request_eq_call hd rfl])
        · exact .inr ⟨e, x, by rw [hp, request_eq_call hd rfl]⟩
      · exact .inl (by rw [exec_law_pid_of_ne hi hx (by rwa [hmode]), hpid])
    · have heff : BankEffect (s.deliver r rest) t := exec_bank hi hx
      have hacc := heff.acc (by rwa [s.deliver_cfg]) m
      rw [hpid, hmode, s.deliver_cfg] at hacc
      exact hacc.imp_right .inl

end Sys2Proof.Machine
